-- ==== Sys2Proof/Config.lean ====
section
/-! DEFINITION. What this implementation fixes: the parameters of spec/00_scope.md R5 and R6 and the constant
registers of spec/10_state.md R28, R29 and R33. No parameter is left open (R5), so there is no free value here. -/

namespace Sys2Proof.Config

/-- The modulus N, the RSA-2048 challenge number (spec/00_scope.md R6, spec/10_state.md R28; PRESUMED as R6 marks it,
log entry 18). -/
def N : Nat :=
  0xc7970ceedcc3b0754490201a7aa613cd73911081c790f5f1a8726f463550bb5b7ff0db8e1ea1189ec72f93d1650011bd721aeeacc2acde32a04107f0648c2813a31f5b0b7765ff8b44b4b6ffc93384b646eb09c7cf5e8592d40ea33c80039f35b4f14a04b51f7bfd781be4d1673164ba8eb991c2c4d730bbbe35f592bdef524af7e8daefd26c66fc02c479af89d64d373f442709439de66ceb955f3ea37d5159f6135809f85334b5cb1813addc80cd05609f10ac6a95ad65872c909525bdad32bc729592642920f24c61dc5b3c3b7923e56b16a4d9d373d8721f24a3fc0f1b3131f55615172866bccc30f95054c824e733a5eb6817f7bc16399d48c6361cc7e5

/-- The identification register ID: ASCII "FRC" and the version byte (spec/10_state.md R33). -/
def id : BitVec 32 := 0x46524301#32

/-- `MR_K`, the number of Miller–Rabin rounds (spec/00_scope.md R5). -/
def mrRounds : Nat := 40

/-- `SEED_PREFIX`, how many leading bytes give the first candidate (spec/00_scope.md R5). -/
def seedPrefix : Nat := 32

/-- `SMALL_PRIMES`, the trial division table (spec/10_state.md R29). -/
def smallPrimes : List Nat := [3, 5, 7, 11, 13, 17, 19, 23, 29, 31, 37, 41, 43, 47, 53]

/-- The reset value of PROG_INTERVAL (spec/00_scope.md R5, spec/10_state.md R35). -/
def progIntervalReset : BitVec 32 := 1000#32

end Sys2Proof.Config
end

