-- ==== Sys2Proof/Word.lean ====
section
/-! DEFINITION. The word types of the core (spec/00_scope.md R5, R8). -/

namespace Sys2Proof

/-- One byte of a window or of a byte string (spec/00_scope.md R9). -/
abbrev Byte := BitVec 8

/-- A command word, a control register, the data of a port transaction (spec/10_state.md section 3). -/
abbrev Word := BitVec 32

/-- The contents of a working register, `NBITS` wide (spec/00_scope.md R5). -/
abbrev Big := BitVec 2048

/-- A byte offset of the host port (spec/20_memory.md R60). -/
abbrev Offset := BitVec 12

/-- The index of a working register, W0 to W7 (spec/30_encoding.md R96). -/
abbrev WReg := Fin 8

end Sys2Proof
end

