-- ==== Sys2Proof/Machine/Codec.lean ====
section
/-! DEFINITION. The byte strings and codec functions of spec/00_scope.md R8 and R9: big-endian, over exact naturals. -/

namespace Sys2Proof.Machine

/-- `bitlen(v)`: the least k with v < 2^k (spec/00_scope.md R8). -/
def bitlen (v : Nat) : Nat := if v = 0 then 0 else v.log2 + 1

/-- The byte `k` of `v` written big-endian in `m` bytes: `intToBytes(v, m)[k]` (spec/20_memory.md R64). -/
def byteAt (v m k : Nat) : Byte := BitVec.ofNat 8 (v / 256 ^ (m - 1 - k))

/-- `intToBytes(v, w)`: exactly `w` bytes, big-endian, left-padded with zeros (spec/00_scope.md R9). -/
def intToBytes (v w : Nat) : List Byte := (List.range w).map (byteAt v w)

/-- `bytesToInt(b)`: the big-endian value of a byte string; 0 of the empty one (spec/00_scope.md R9). -/
def bytesToInt (b : List Byte) : Nat := b.foldl (fun v x => 256 * v + x.toNat) 0

/-- How many bytes `intBytes` takes: `max(1, ceil(bitlen(v)/8))` (spec/00_scope.md R9). -/
def minBytes (v : Nat) : Nat := max 1 ((bitlen v + 7) / 8)

/-- `intBytes(v)`: minimum length, with `intBytes(0) = [0x00]` (spec/00_scope.md R9). -/
def intBytes (v : Nat) : List Byte := intToBytes v (minBytes v)

/-- `u32BE(n)` (spec/00_scope.md R9). -/
def u32BE (n : Nat) : List Byte := intToBytes n 4

/-- `u64BE(n)` (spec/00_scope.md R9). -/
def u64BE (n : Nat) : List Byte := intToBytes n 8

/-- Bytes `k .. k + new.length - 1` of a window replaced, the others left (spec/20_memory.md R64). -/
def splice (old : List Byte) (k : Nat) (new : List Byte) : List Byte :=
  old.take k ++ new ++ old.drop (k + new.length)

end Sys2Proof.Machine
end

