-- ==== Sys2Proof/Syntax.lean ====
section
/-! DEFINITION. The nine commands of spec/opcode_table.json and the fields of a command word
(spec/30_encoding.md R91, R93). Working-register operands are indices below 8 by their type (R96). -/

namespace Sys2Proof

/-- One constructor per row of the opcode map (spec/30_encoding.md R93), operands in the order of R97. -/
inductive Instr where
  /-- `SQRMOD wd, ws` (spec/40_modarith.md R111). -/
  | sqrmod (rd rs1 : WReg)
  /-- `MULMOD wd, wa, wb` (spec/40_modarith.md R112). -/
  | mulmod (rd rs1 rs2 : WReg)
  /-- `MODEXP wd, wb, we`: base `rs1`, exponent `rs2` (spec/40_modarith.md R113). -/
  | modexp (rd rs1 rs2 : WReg)
  /-- `REDUCE wd, ws` (spec/40_modarith.md R114). -/
  | reduce (rd rs1 : WReg)
  /-- `EVAL wd, ws` (spec/41_eval.md R140). -/
  | eval (rd rs1 : WReg)
  /-- `PROVE wd, ws` (spec/43_prove.md R181). -/
  | prove (rd rs1 : WReg)
  /-- `H2PY ws` (spec/42_hash_to_prime.md R160). -/
  | h2py (rs1 : WReg)
  /-- `H2PS` (spec/42_hash_to_prime.md R161). -/
  | h2ps
  /-- `PTEST` (spec/42_hash_to_prime.md R162). -/
  | ptest
  deriving DecidableEq, Repr

/-- The fields of a command word as they stand in it, before any check (spec/30_encoding.md R91). -/
structure Fields where
  opc : BitVec 6
  rd : BitVec 3
  rs1 : BitVec 3
  rs2 : BitVec 3
  m : BitVec 1
  zero : BitVec 16
  deriving DecidableEq, Repr

/-- The format classes (spec/30_encoding.md R92). -/
inductive Format where
  | r3
  | r2
  | hy
  | hs
  | n0
  deriving DecidableEq, Repr

/-- Why a command word is ILLEGAL, one name for each case of spec/30_encoding.md R95. -/
inductive Illegal where
  /-- The opcode is in no row of R93. -/
  | reservedOpcode
  /-- A nonzero bit in 31:16. -/
  | upperBits
  /-- m = 1 with an opcode other than 0x10. -/
  | modeBit
  /-- A nonzero bit in a register field that the class requires to be 0. -/
  | unusedField
  /-- The bytes given are not one 32-bit word (spec/30_encoding.md R90, spec/20_memory.md R68). -/
  | notOneWord
  deriving DecidableEq, Repr

end Sys2Proof
end

