-- ==== Sys2Proof/WellFormed.lean ====
section
/-! DEFINITION. Which fields make a legal command word (spec/30_encoding.md R92 and R95). The check reads the raw
fields; the decoder is written from the mask and match columns of R93 instead, so that the two can be compared.
An `Instr` needs no check of its own: its operands are register indices by their type. -/

namespace Sys2Proof

/-- The class of an opcode, the mode bit telling H2PS from H2PY (spec/30_encoding.md R93). -/
def Fields.format (f : Fields) : Option Format :=
  match f.opc.toNat with
  | 0x01 => some .r2
  | 0x02 => some .r3
  | 0x03 => some .r3
  | 0x04 => some .r2
  | 0x08 => some .r2
  | 0x09 => some .r2
  | 0x10 => if f.m = 1#1 then some .hs else some .hy
  | 0x11 => some .n0
  | _ => none

/-- The register fields a class does not use are 0 (spec/30_encoding.md R92). -/
def Fields.unusedZero (f : Fields) : Format → Bool
  | .r3 => true
  | .r2 => f.rs2 == 0#3
  | .hy => f.rd == 0#3 && f.rs2 == 0#3
  | .hs => f.rd == 0#3 && f.rs1 == 0#3 && f.rs2 == 0#3
  | .n0 => f.rd == 0#3 && f.rs1 == 0#3 && f.rs2 == 0#3

/-- What makes the fields ILLEGAL, if anything does (spec/30_encoding.md R95). Where several cases apply the first
in this order is named; the spec names none, and the name has no effect on the machine (log entry 12). -/
def Fields.defect (f : Fields) : Option Illegal :=
  match f.format with
  | none => some .reservedOpcode
  | some k =>
    if f.zero != 0#16 then some .upperBits
    else if f.m == 1#1 && f.opc != 0x10#6 then some .modeBit
    else if f.unusedZero k then none
    else some .unusedField

/-- The fields are those of a legal command word. -/
def Fields.wellFormed (f : Fields) : Bool := f.defect == none

end Sys2Proof
end

