-- ==== Sys2Proof/Decode.lean ====
section
/-! DEFINITION. Decoding a command word by the mask and match rows of spec/30_encoding.md R93 and R94, total and
rejecting by name (R95), and the encoder of R97. -/

namespace Sys2Proof

/-- The fields of a word at the positions of spec/30_encoding.md R91. -/
def Fields.ofWord (c : Word) : Fields where
  opc := c.extractLsb' 0 6
  rd := c.extractLsb' 6 3
  rs1 := c.extractLsb' 9 3
  rs2 := c.extractLsb' 12 3
  m := c.extractLsb' 15 1
  zero := c.extractLsb' 16 16

/-- A 3-bit field as the register it names, unsigned (spec/30_encoding.md R96). -/
def toReg (x : BitVec 3) : WReg := ⟨x.toNat, x.isLt⟩

/-- One row of the opcode map (spec/30_encoding.md R93). -/
structure OpcodeRow where
  mnemonic : String
  value : Word
  mask : Word
  build : Fields → Instr

/-- The opcode map (spec/30_encoding.md R93). -/
def opcodeMap : List OpcodeRow :=
  [⟨"SQRMOD", 0x00000001#32, 0xFFFFF03F#32, fun f => .sqrmod (toReg f.rd) (toReg f.rs1)⟩,
   ⟨"MULMOD", 0x00000002#32, 0xFFFF803F#32, fun f => .mulmod (toReg f.rd) (toReg f.rs1) (toReg f.rs2)⟩,
   ⟨"MODEXP", 0x00000003#32, 0xFFFF803F#32, fun f => .modexp (toReg f.rd) (toReg f.rs1) (toReg f.rs2)⟩,
   ⟨"REDUCE", 0x00000004#32, 0xFFFFF03F#32, fun f => .reduce (toReg f.rd) (toReg f.rs1)⟩,
   ⟨"EVAL", 0x00000008#32, 0xFFFFF03F#32, fun f => .eval (toReg f.rd) (toReg f.rs1)⟩,
   ⟨"PROVE", 0x00000009#32, 0xFFFFF03F#32, fun f => .prove (toReg f.rd) (toReg f.rs1)⟩,
   ⟨"H2PY", 0x00000010#32, 0xFFFFF1FF#32, fun f => .h2py (toReg f.rs1)⟩,
   ⟨"H2PS", 0x00008010#32, 0xFFFFFFFF#32, fun _ => .h2ps⟩,
   ⟨"PTEST", 0x00000011#32, 0xFFFFFFFF#32, fun _ => .ptest⟩]

/-- The row matches the word: `(c & mask) == match` (spec/30_encoding.md R92). -/
def OpcodeRow.matches (r : OpcodeRow) (c : Word) : Bool := c &&& r.mask == r.value

/-- What decoding answers: a command, or ILLEGAL with its name. -/
inductive Decoded where
  | ok (i : Instr)
  | illegal (why : Illegal)
  deriving DecidableEq, Repr

/-- `decode(c)` (spec/30_encoding.md R94), total on every 32-bit word. -/
def decode (c : Word) : Decoded :=
  match opcodeMap.find? (·.matches c) with
  | some r => .ok (r.build (Fields.ofWord c))
  | none => .illegal ((Fields.ofWord c).defect.getD .unusedField)

/-- Decoding the bytes of a CMD write, the byte at the lowest offset first (spec/30_encoding.md R90,
spec/20_memory.md R65 and R68): four bytes are a word, anything else is rejected. -/
def decodeBytes (b : List Byte) : Decoded :=
  if b.length = 4 then decode (BitVec.ofNat 32 (Machine.bytesToInt b)) else .illegal .notOneWord

/-- The command in an instruction whose bits are `w`, numbered as spec/opcode_table.json numbers them, laid out as
the four bytes at CMD. -/
def decodeTableWord (nbits w : Nat) : Option Instr :=
  let v := w % 2 ^ nbits
  if v < 2 ^ 32 then
    match decodeBytes (Machine.intToBytes v 4) with
    | .ok i => some i
    | .illegal _ => none
  else none

/-- A register index at its place in the word. -/
def place (r : WReg) (at_ : Nat) : Word := BitVec.ofNat 32 r.val <<< at_

/-- The command word of each assembly line of spec/30_encoding.md R97. -/
def encode : Instr → Word
  | .sqrmod d s => 0x01#32 ||| place d 6 ||| place s 9
  | .mulmod d a b => 0x02#32 ||| place d 6 ||| place a 9 ||| place b 12
  | .modexp d b e => 0x03#32 ||| place d 6 ||| place b 9 ||| place e 12
  | .reduce d s => 0x04#32 ||| place d 6 ||| place s 9
  | .eval d s => 0x08#32 ||| place d 6 ||| place s 9
  | .prove d s => 0x09#32 ||| place d 6 ||| place s 9
  | .h2py s => 0x10#32 ||| place s 9
  | .h2ps => 0x00008010#32
  | .ptest => 0x00000011#32

end Sys2Proof
end

