-- ==== Sys2Proof/Machine/State.lean ====
section
/-! DEFINITION. The state of the core (spec/10_state.md), the outcomes a step can stop with, and the state after
reset (spec/70_reset_and_hazards.md R230). -/

namespace Sys2Proof.Machine

/-- The codes of STATUS.ERR (spec/60_exceptions.md R200). The reserved codes 0x6 to 0xE are never produced (U7) and
have no constructor (log entry 10). -/
inductive ErrCode where
  | ok
  | eill
  | earg
  | erange
  | edom
  | ecancel
  /-- Produced by no rule (spec/60_exceptions.md R204). -/
  | einternal
  deriving DecidableEq, Repr

/-- The sequencer's phase (spec/10_state.md R36). -/
inductive Phase where
  | idle
  | run
  deriving DecidableEq, Repr

/-- The reset input rst_n and its history (spec/70_reset_and_hazards.md R230, R231; log entries 4 and 14). -/
inductive ResetLine where
  /-- Power is on and rst_n has not been asserted yet: no register holds a value (R231). -/
  | unset
  /-- rst_n is low (R230). -/
  | held
  /-- rst_n is high after at least one reset: the core works. -/
  | released
  deriving DecidableEq, Repr

/-- The operand values latched at accept (spec/10_state.md R36, R41). -/
structure Snap where
  rs1 : Big
  rs2 : Big
  t : BitVec 64
  l : BitVec 288
  seed : BitVec 256
  deriving DecidableEq, Repr

/-- The loop variables of the commands, under the names their rules give them (spec/10_state.md R36): natural
numbers, as R7 has them (log entry 8). -/
structure Loop where
  /-- MODEXP (spec/40_modarith.md R113). -/
  result : Nat
  sq : Nat
  j : Nat
  /-- EVAL (spec/41_eval.md R140). -/
  acc : Nat
  /-- EVAL and PROVE: the count of iterations done. -/
  i : Nat
  /-- PROVE (spec/43_prove.md R181). -/
  remainder : Nat
  proof : Nat
  /-- H2PY and H2PS (spec/42_hash_to_prime.md R158). -/
  cand : Nat
  found : Bool
  deriving DecidableEq, Repr

/-- The response field of a transaction (spec/20_memory.md R60). -/
inductive Resp where
  | okay
  | error
  deriving DecidableEq, Repr

/-- What the port answered to the last host transaction (spec/20_memory.md R60). -/
inductive Response where
  /-- No answer: no transaction yet, or one while rst_n is low (spec/70_reset_and_hazards.md R230). -/
  | none
  /-- A read's response and data, a 1-byte datum zero-extended; ERROR comes with data 0. -/
  | read (resp : Resp) (data : Word)
  /-- A write's response. -/
  | write (resp : Resp)
  deriving DecidableEq, Repr

/-- One move of an agent (spec/00_scope.md R14): a host transaction, a sequencer step, or an edge of rst_n. A size
is any number, so that sizes the port refuses can be asked for; a 1-byte write carries its byte in bits 7:0
(log entry 2). -/
inductive Action where
  | read (addr : Offset) (size : Nat)
  | write (addr : Offset) (size : Nat) (data : Word)
  | sequencer
  | resetLow
  | resetHigh
  deriving DecidableEq, Repr

/-- The whole state of the core (spec/10_state.md R20, R36, R37), the reset line, and two fields of the model's own:
the moves still to come and the last response. -/
structure State where
  /-- W0 to W7 (R21). -/
  w : Vector Big 8
  /-- T (R23). -/
  t : BitVec 64
  /-- L (R24). -/
  l : BitVec 288
  /-- REM (R25). -/
  rem : BitVec 288
  /-- SEED (R26). -/
  seed : BitVec 256
  /-- ITER (R27). -/
  iter : BitVec 64
  /-- CTRL.IE and CTRL.PIE (R30). -/
  ie : Bool
  pie : Bool
  /-- STATUS.DONE, PROG, PRIME and ERR (R31); BUSY is the phase (R36). -/
  done : Bool
  prog : Bool
  prime : Bool
  err : ErrCode
  /-- CMD (R34). -/
  cmd : Word
  /-- PROG_INTERVAL (R35). -/
  progInterval : Word
  /-- The sequencer: phase, op, snap, loop and done_loop (R36). -/
  phase : Phase
  op : Instr
  snap : Snap
  loop : Loop
  doneLoop : Bool
  /-- abort_pending (R37). -/
  abortPending : Bool
  /-- rst_n (spec/70_reset_and_hazards.md R230). -/
  rst : ResetLine
  /-- The model's own: the moves still to come, the next one first (log entry 1). -/
  sched : List Action
  /-- The model's own: the response to the last host transaction (log entry 3). -/
  resp : Response
  deriving DecidableEq, Repr

/-- The reasons a step stops with a fault. -/
inductive Fault where
  /-- A host transaction before the first reset (spec/70_reset_and_hazards.md R231, U6): raised by the host port.
  Safe: the model stops where the core would answer an unspecified value. -/
  | beforeReset
  deriving DecidableEq, Repr

/-- The reasons a step is refused. -/
inductive Refusal where
  /-- An instruction without a meaning; raised by `exec`'s arm for it, and by none at present. Safe. -/
  | notModelled (mnemonic : String)
  deriving DecidableEq, Repr

/-- Latches that hold nothing of a command. -/
def Snap.empty : Snap := ⟨0#2048, 0#2048, 0#64, 0#288, 0#256⟩

/-- Loop variables that hold nothing of a command. -/
def Loop.empty : Loop := ⟨0, 0, 0, 0, 0, 0, 0, 0, false⟩

/-- The state after reset (spec/70_reset_and_hazards.md R230). R230 gives no value for `op`, `snap`, `loop` and
`doneLoop`: those are the model's choice (DESIGN CHOICE, log entry 6), as are no move to come and no response. -/
def State.reset : State where
  w := Vector.replicate 8 0#2048
  t := 0#64
  l := 0#288
  rem := 0#288
  seed := 0#256
  iter := 0#64
  ie := false
  pie := false
  done := false
  prog := false
  prime := false
  err := .ok
  cmd := 0#32
  progInterval := Config.progIntervalReset
  phase := .idle
  op := .sqrmod 0 0
  snap := Snap.empty
  loop := Loop.empty
  doneLoop := false
  abortPending := false
  rst := .released
  sched := []
  resp := .none

end Sys2Proof.Machine
end

