-- ==== Sys2Proof/Machine/Flags.lean ====
section
/-! DEFINITION. The control and status fields: their words (spec/10_state.md R30, R31), how a host write and the
sequencer change them, and the interrupt line (R38). -/

namespace Sys2Proof.Machine

/-- The number of an error code (spec/60_exceptions.md R200). -/
def ErrCode.code : ErrCode → Nat
  | .ok => 0x0
  | .eill => 0x1
  | .earg => 0x2
  | .erange => 0x3
  | .edom => 0x4
  | .ecancel => 0x5
  | .einternal => 0xF

/-- STATUS.BUSY (spec/10_state.md R31, R36). -/
def State.busy (s : State) : Bool := s.phase == .run

/-- The CTRL register as it reads: ABORT and the reserved bits are 0 (spec/10_state.md R30). -/
def State.ctrlWord (s : State) : Nat := s.ie.toNat + 2 * s.pie.toNat

/-- The STATUS register as it reads (spec/10_state.md R31). -/
def State.statusWord (s : State) : Nat :=
  s.busy.toNat + 2 * s.done.toNat + 4 * s.prog.toNat + 8 * s.prime.toNat + 256 * s.err.code

/-- The interrupt output (spec/10_state.md R38). -/
def State.irq (s : State) : Bool := (s.done && s.ie) || (s.prog && s.pie)

/-- A host write of the byte with CTRL bits 7:0: IE and PIE take bits 0 and 1; bit 2 asks for an abort while a
command runs (spec/10_state.md R30, R37). -/
def State.writeCtrl (s : State) (b : Byte) : State :=
  { s with
    ie := b.getLsbD 0
    pie := b.getLsbD 1
    abortPending := s.abortPending || (b.getLsbD 2 && s.busy) }

/-- A host write of the byte with STATUS bits 7:0: DONE and PROG are cleared by writing 1 (spec/10_state.md R31). -/
def State.writeStatus (s : State) (b : Byte) : State :=
  { s with
    done := s.done && !b.getLsbD 1
    prog := s.prog && !b.getLsbD 2 }

/-- A progress event falls on this value of ITER (spec/10_state.md R47). -/
def progressDue (interval : Word) (iter : BitVec 64) : Bool :=
  interval != 0#32 && iter.toNat % interval.toNat == 0

/-- An iteration step adds one to ITER, modulo 2^64 (log entry 16), and sets PROG when a progress event falls on the
new count (spec/10_state.md R44, R47). -/
def State.tick (s : State) : State :=
  { s with
    iter := s.iter + 1#64
    prog := s.prog || progressDue s.progInterval (s.iter + 1#64) }

end Sys2Proof.Machine
end

