-- ==== Sys2Proof/Machine/Operands.lean ====
section
/-! DEFINITION. Reading and writing working registers (spec/10_state.md R21, spec/30_encoding.md R96) and the operand
requirements checked at accept (spec/60_exceptions.md R202, R203). -/

namespace Sys2Proof.Machine

/-- `W[i]` (spec/00_scope.md R11). -/
def State.wreg (s : State) (r : WReg) : Big := s.w[r]

/-- `W[i] <- v` (spec/00_scope.md R11). -/
def State.setW (s : State) (r : WReg) (v : Nat) : State := { s with w := s.w.set r (BitVec.ofNat 2048 v) }

/-- T ≥ 1, or EARG (spec/60_exceptions.md R202 line 2). -/
def State.requireIterations (s : State) : ErrCode := if s.t.toNat = 0 then .earg else .ok

/-- L ≥ 2, or EDOM (spec/60_exceptions.md R202 line 3). -/
def State.requireDivisor (s : State) : ErrCode := if s.l.toNat < 2 then .edom else .ok

/-- `W[r] < N`, or ERANGE (spec/60_exceptions.md R202 lines 4 and 5). -/
def State.requireResidue (s : State) (r : WReg) : ErrCode := if Config.N ≤ (s.wreg r).toNat then .erange else .ok

/-- The first failure of checks taken in order, or OK (spec/60_exceptions.md R202). -/
def firstFailure : List ErrCode → ErrCode
  | [] => .ok
  | .ok :: rest => firstFailure rest
  | e :: _ => e

end Sys2Proof.Machine
end

