-- ==== Sys2Proof/Machine/Ops.lean ====
section
/-! DEFINITION. The sequencer: accept, iteration step, commit and completion (spec/10_state.md R43 to R47), each once
for all commands. A command is the five parts its rule gives. Completion is this core's analogue of an exception
(spec/60_exceptions.md R206): `State.complete` is that one shared operation. There is no return instruction; the host
acknowledges by `State.writeStatus` or by the next accept (R207). -/

namespace Sys2Proof.Machine

/-- What a command's rule defines (spec/10_state.md R43, R44; the template of spec/40_modarith.md). -/
structure Command where
  /-- The checks at accept, after decoding (spec/60_exceptions.md R202). -/
  check : State → ErrCode
  /-- The operands latched (spec/10_state.md R41). -/
  snap : State → Snap
  /-- The loop's initial variables. -/
  init : Snap → Loop
  /-- The loop has no step left. -/
  done : Snap → Loop → Bool
  /-- The iteration step; `none` for a command that has none. -/
  iterate : Option (Snap → Loop → Loop)
  /-- The destinations written at commit (spec/10_state.md R45). -/
  commit : Snap → Loop → State → State

/-- The schedule with its first move taken off (log entry 1). -/
def State.withSched (s : State) (rest : List Action) : State := { s with sched := rest }

/-- The port answers a host transaction (spec/20_memory.md R60). -/
def State.answer (s : State) (r : Response) : State := { s with resp := r }

/-- Complete with code `e` (spec/10_state.md R46). -/
def State.complete (s : State) (e : ErrCode) : State :=
  { s with err := e, done := true, phase := .idle, abortPending := false }

/-- The first line of an accept: CMD takes the word, and DONE, ERR, ITER and abort_pending are cleared
(spec/10_state.md R43). -/
def State.latchCommand (s : State) (c : Word) : State :=
  { s with cmd := c, done := false, err := .ok, iter := 0#64, abortPending := false }

/-- The accept of a command whose checks pass: snapshot, init, RUN (spec/10_state.md R43). Latches and variables that
the command's rule does not name become 0 (DESIGN CHOICE, log entry 13). -/
def State.start (s : State) (i : Instr) (k : Command) : State :=
  { s with
    op := i
    snap := k.snap s
    loop := k.init (k.snap s)
    doneLoop := k.done (k.snap s) (k.init (k.snap s))
    phase := .run }

/-- The accept of a decoded command, one atomic step (spec/10_state.md R43): a failed check completes at once with
its code. The word latched is the command's own (`decode` accepts no other word for it). -/
def State.accept (s : State) (i : Instr) (k : Command) : State :=
  let s1 := s.latchCommand (encode i)
  if k.check s1 = .ok then s1.start i k else s1.complete (k.check s1)

/-- A command's iteration step (spec/10_state.md R44): the loop moves on, done_loop is evaluated again, ITER counts
and a progress event may fall (R47). A command without one has none to take: from a state no run reaches, its loop
ends (log entry 9). -/
def State.iterateStep (s : State) (k : Command) : State :=
  match k.iterate with
  | some f => { s with loop := f s.snap s.loop, doneLoop := k.done s.snap (f s.snap s.loop) }.tick
  | none => { s with doneLoop := true }

/-- The commit: the destinations are written and the command completes with OK, in one step
(spec/10_state.md R45). -/
def State.commitStep (s : State) (k : Command) : State := (k.commit s.snap s.loop s).complete .ok

/-- One sequencer step (spec/10_state.md R44): a pending abort cancels, a finished loop commits, else it iterates. -/
def State.advance (s : State) (k : Command) : State :=
  if s.abortPending then s.complete .ecancel
  else if s.doneLoop then s.commitStep k
  else s.iterateStep k

/-- The next atomic step of a command: its accept while the core is idle, a sequencer step while it runs. -/
def runCommand (i : Instr) (k : Command) (s : State) : Host.Outcome State Fault Refusal :=
  match s.phase with
  | .idle => .next (s.accept i k)
  | .run => .next (s.advance k)

end Sys2Proof.Machine
end

