-- ==== Sys2Proof/Machine/ModArith.lean ====
section
/-! DEFINITION. The multiplier's residue functions and the commands SQRMOD, MULMOD, MODEXP and REDUCE
(spec/40_modarith.md). -/

namespace Sys2Proof.Machine

/-- `mulmod(a, b)` (spec/40_modarith.md R110). -/
def mulmod (a b : Nat) : Nat := a * b % Config.N

/-- `sqrmod(a)` (spec/40_modarith.md R110). -/
def sqrmod (a : Nat) : Nat := a * a % Config.N

/-- SQRMOD (spec/40_modarith.md R111). -/
def sqrmodCommand (rd rs1 : WReg) : Command where
  check s := s.requireResidue rs1
  snap s := { Snap.empty with rs1 := s.wreg rs1 }
  init _ := Loop.empty
  done _ _ := true
  iterate := none
  commit n _ s := s.setW rd (sqrmod n.rs1.toNat)

def execSqrmod (rd rs1 : WReg) (s : State) : Host.Outcome State Fault Refusal :=
  runCommand (.sqrmod rd rs1) (sqrmodCommand rd rs1) s

/-- MULMOD (spec/40_modarith.md R112). -/
def mulmodCommand (rd rs1 rs2 : WReg) : Command where
  check s := firstFailure [s.requireResidue rs1, s.requireResidue rs2]
  snap s := { Snap.empty with rs1 := s.wreg rs1, rs2 := s.wreg rs2 }
  init _ := Loop.empty
  done _ _ := true
  iterate := none
  commit n _ s := s.setW rd (mulmod n.rs1.toNat n.rs2.toNat)

def execMulmod (rd rs1 rs2 : WReg) (s : State) : Host.Outcome State Fault Refusal :=
  runCommand (.mulmod rd rs1 rs2) (mulmodCommand rd rs1 rs2) s

/-- MODEXP's iteration step: one exponent bit, least significant first (spec/40_modarith.md R113). -/
def modexpStep (n : Snap) (p : Loop) : Loop :=
  { p with
    result := if n.rs2.getLsbD p.j then mulmod p.result p.sq else p.result
    sq := sqrmod p.sq
    j := p.j + 1 }

/-- MODEXP: base W[rs1], exponent W[rs2], which is not checked (spec/40_modarith.md R113). -/
def modexpCommand (rd rs1 rs2 : WReg) : Command where
  check s := s.requireResidue rs1
  snap s := { Snap.empty with rs1 := s.wreg rs1, rs2 := s.wreg rs2 }
  init n := { Loop.empty with result := 1, sq := n.rs1.toNat, j := 0 }
  done n p := p.j == bitlen n.rs2.toNat
  iterate := some modexpStep
  commit _ p s := s.setW rd p.result

def execModexp (rd rs1 rs2 : WReg) (s : State) : Host.Outcome State Fault Refusal :=
  runCommand (.modexp rd rs1 rs2) (modexpCommand rd rs1 rs2) s

/-- REDUCE, of any value (spec/40_modarith.md R114). -/
def reduceCommand (rd rs1 : WReg) : Command where
  check _ := .ok
  snap s := { Snap.empty with rs1 := s.wreg rs1 }
  init _ := Loop.empty
  done _ _ := true
  iterate := none
  commit n _ s := s.setW rd (n.rs1.toNat % Config.N)

def execReduce (rd rs1 : WReg) (s : State) : Host.Outcome State Fault Refusal :=
  runCommand (.reduce rd rs1) (reduceCommand rd rs1) s

end Sys2Proof.Machine
end

