-- ==== Sys2Proof/Machine/Eval.lean ====
section
/-! DEFINITION. The evaluation engine: EVAL (spec/41_eval.md). -/

namespace Sys2Proof.Machine

/-- EVAL's iteration step: one squaring of the result of the one before (spec/41_eval.md R140, R141). -/
def evalStep (_ : Snap) (p : Loop) : Loop := { p with acc := sqrmod p.acc, i := p.i + 1 }

/-- EVAL (spec/41_eval.md R140). -/
def evalCommand (rd rs1 : WReg) : Command where
  check s := firstFailure [s.requireIterations, s.requireResidue rs1]
  snap s := { Snap.empty with rs1 := s.wreg rs1, t := s.t }
  init n := { Loop.empty with acc := n.rs1.toNat, i := 0 }
  done n p := p.i == n.t.toNat
  iterate := some evalStep
  commit _ p s := s.setW rd p.acc

def execEval (rd rs1 : WReg) (s : State) : Host.Outcome State Fault Refusal :=
  runCommand (.eval rd rs1) (evalCommand rd rs1) s

end Sys2Proof.Machine
end

