-- ==== Sys2Proof/Machine/Primality.lean ====
section
/-! DEFINITION. The primality predicate of the hash-to-prime engine (spec/42_hash_to_prime.md section 1): exact
arithmetic on naturals modulo the candidate. -/

namespace Sys2Proof.Machine

/-- `b^e mod m` by squaring, reading the exponent from its least significant bit; `fuel` bounds the bits read. -/
def powModBits (m : Nat) : Nat → Nat → Nat → Nat
  | 0, _, _ => 1 % m
  | fuel + 1, b, e =>
    if e = 0 then 1 % m
    else if e % 2 = 1 then b * powModBits m fuel (b * b % m) (e / 2) % m
    else powModBits m fuel (b * b % m) (e / 2)

/-- `a^d mod n` (spec/42_hash_to_prime.md R153). -/
def powMod (a d n : Nat) : Nat := powModBits n (bitlen d) a d

/-- `trialReject(n)` (spec/42_hash_to_prime.md R152). -/
def trialReject (n : Nat) : Bool := Config.smallPrimes.any fun p => n % p == 0 && n != p

/-- The witness of round `i` for candidate `n` (spec/42_hash_to_prime.md R151). -/
def witness (n i : Nat) : Nat := bytesToInt (sha256 (intBytes n ++ u32BE i)) % (n - 4) + 2

/-- The pair (d, s) with v = d * 2^s and d odd, for v > 0; `fuel` bounds s (spec/42_hash_to_prime.md R153). -/
def splitOdd : Nat → Nat → Nat × Nat
  | 0, v => (v, 0)
  | fuel + 1, v =>
    if v % 2 = 0 then
      let r := splitOdd fuel (v / 2)
      (r.1, r.2 + 1)
    else (v, 0)

/-- Up to `k` squarings of `x` modulo `n`, true as soon as one gives n - 1 (spec/42_hash_to_prime.md R153). -/
def squaringsReach (n : Nat) : Nat → Nat → Bool
  | 0, _ => false
  | k + 1, x =>
    let y := x * x % n
    y == n - 1 || squaringsReach n k y

/-- `round(n, i) == PASS` for odd n ≥ 5 (spec/42_hash_to_prime.md R153). -/
def roundPass (n i : Nat) : Bool :=
  let ds := splitOdd (bitlen n) (n - 1)
  let x := powMod (witness n i) ds.1 n
  x == 1 || x == n - 1 || squaringsReach n (ds.2 - 1) x

/-- `millerRabin(n)`: every round passes, in index order (spec/42_hash_to_prime.md R154). -/
def millerRabin (n : Nat) : Bool := (List.range Config.mrRounds).all (roundPass n)

/-- `isPrimeCore(n)` for odd n (spec/42_hash_to_prime.md R150). -/
def isPrimeCore (n : Nat) : Bool :=
  if n = 1 then false
  else if n = 3 then true
  else if trialReject n then false
  else millerRabin n

/-- `isPrime(n)` for any n (spec/42_hash_to_prime.md R155). -/
def isPrime (n : Nat) : Bool :=
  if n < 2 then false
  else if n = 2 then true
  else if n % 2 = 0 then false
  else isPrimeCore n

end Sys2Proof.Machine
end

