-- ==== Sys2Proof/Machine/HashToPrime.lean ====
section
/-! DEFINITION. The hash-to-prime engine's commands: H2PY, H2PS and PTEST (spec/42_hash_to_prime.md). -/

namespace Sys2Proof.Machine

/-- The initial candidate of H2PY: the first 32 bytes of the value's minimum-length encoding
(spec/42_hash_to_prime.md R156). -/
def prefixCandidate (v : Nat) : Nat := bytesToInt ((intBytes v).take Config.seedPrefix)

/-- The search's init: an even candidate is made odd (spec/42_hash_to_prime.md R158). -/
def searchInit (cand0 : Nat) : Loop :=
  { Loop.empty with cand := if cand0 % 2 = 0 then cand0 + 1 else cand0, found := false }

/-- The search's iteration step: one whole candidate (spec/42_hash_to_prime.md R158). -/
def searchStep (_ : Snap) (p : Loop) : Loop :=
  if isPrimeCore p.cand then { p with found := true } else { p with cand := p.cand + 2 }

/-- The search's commit (spec/42_hash_to_prime.md R158). -/
def searchCommit (p : Loop) (s : State) : State := { s with l := BitVec.ofNat 288 p.cand, prime := true }

/-- H2PY (spec/42_hash_to_prime.md R160). -/
def h2pyCommand (rs1 : WReg) : Command where
  check _ := .ok
  snap s := { Snap.empty with rs1 := s.wreg rs1 }
  init n := searchInit (prefixCandidate n.rs1.toNat)
  done _ p := p.found
  iterate := some searchStep
  commit _ p s := searchCommit p s

def execH2py (rs1 : WReg) (s : State) : Host.Outcome State Fault Refusal :=
  runCommand (.h2py rs1) (h2pyCommand rs1) s

/-- H2PS: the initial candidate is SEED (spec/42_hash_to_prime.md R157, R161). -/
def h2psCommand : Command where
  check _ := .ok
  snap s := { Snap.empty with seed := s.seed }
  init n := searchInit n.seed.toNat
  done _ p := p.found
  iterate := some searchStep
  commit _ p s := searchCommit p s

def execH2ps (s : State) : Host.Outcome State Fault Refusal := runCommand .h2ps h2psCommand s

/-- PTEST (spec/42_hash_to_prime.md R162). -/
def ptestCommand : Command where
  check _ := .ok
  snap s := { Snap.empty with l := s.l }
  init _ := Loop.empty
  done _ _ := true
  iterate := none
  commit n _ s := { s with prime := isPrime n.l.toNat }

def execPtest (s : State) : Host.Outcome State Fault Refusal := runCommand .ptest ptestCommand s

end Sys2Proof.Machine
end

