-- ==== Sys2Proof/Machine/Prove.lean ====
section
/-! DEFINITION. The streaming divider and proof engine: PROVE (spec/43_prove.md). -/

namespace Sys2Proof.Machine

/-- `divstep(r, L)`: the quotient bit and the new remainder (spec/43_prove.md R180). -/
def divstep (r l : Nat) : Nat × Nat :=
  let doubled := 2 * r
  let bit := doubled / l
  (bit, doubled - bit * l)

/-- PROVE's iteration step: a divider step, a squaring, and a multiplication for a quotient bit of 1
(spec/43_prove.md R181). -/
def proveStep (n : Snap) (p : Loop) : Loop :=
  let d := divstep p.remainder n.l.toNat
  let squared := sqrmod p.proof
  { p with
    remainder := d.2
    proof := if d.1 = 1 then mulmod squared n.rs1.toNat else squared
    i := p.i + 1 }

/-- PROVE (spec/43_prove.md R181). -/
def proveCommand (rd rs1 : WReg) : Command where
  check s := firstFailure [s.requireIterations, s.requireDivisor, s.requireResidue rs1]
  snap s := { Snap.empty with rs1 := s.wreg rs1, t := s.t, l := s.l }
  init _ := { Loop.empty with remainder := 1, proof := 1, i := 0 }
  done n p := p.i == n.t.toNat
  iterate := some proveStep
  commit _ p s := { s.setW rd p.proof with rem := BitVec.ofNat 288 p.remainder }

def execProve (rd rs1 : WReg) (s : State) : Host.Outcome State Fault Refusal :=
  runCommand (.prove rd rs1) (proveCommand rd rs1) s

end Sys2Proof.Machine
end

