-- ==== Sys2Proof/Machine/Dispatch.lean ====
section
/-! DEFINITION. Which meaning each command has. `exec i s` is the next atomic step of command `i` in state `s`: its
accept while the core is idle, a sequencer step while it runs (spec/10_state.md R43, R44; log entry 15). -/

namespace Sys2Proof.Machine

def exec (i : Instr) (s : State) : Host.Outcome State Fault Refusal :=
  match i with
  | .sqrmod rd rs1 => Sys2Proof.Machine.execSqrmod rd rs1 s
  | .mulmod rd rs1 rs2 => Sys2Proof.Machine.execMulmod rd rs1 rs2 s
  | .modexp rd rs1 rs2 => Sys2Proof.Machine.execModexp rd rs1 rs2 s
  | .reduce rd rs1 => Sys2Proof.Machine.execReduce rd rs1 s
  | .eval rd rs1 => Sys2Proof.Machine.execEval rd rs1 s
  | .prove rd rs1 => Sys2Proof.Machine.execProve rd rs1 s
  | .h2py rs1 => Sys2Proof.Machine.execH2py rs1 s
  | .h2ps => Sys2Proof.Machine.execH2ps s
  | .ptest => Sys2Proof.Machine.execPtest s

end Sys2Proof.Machine
end

