-- ==== Sys2Proof/Machine/Port.lean ====
section
/-! DEFINITION. The host port but for a write of CMD: the address map, the register images, which accesses the port
takes, reads, and the effect of a write on the register it hits (spec/20_memory.md). -/

namespace Sys2Proof.Machine

/-- The registers behind the port's windows (spec/20_memory.md R61). -/
inductive PortReg where
  | id
  | ctrl
  | status
  | cmd
  | t
  | iter
  | progInterval
  | seed
  | l
  | rem
  | w (r : WReg)
  | n
  deriving DecidableEq, Repr

/-- The bytes in a register's window (spec/20_memory.md R61, R64, R65). -/
def PortReg.size : PortReg → Nat
  | .id => 4
  | .ctrl => 4
  | .status => 4
  | .cmd => 4
  | .t => 8
  | .iter => 8
  | .progInterval => 4
  | .seed => 32
  | .l => 36
  | .rem => 36
  | .w _ => 256
  | .n => 256

/-- The lowest offset of a register's window (spec/20_memory.md R61). -/
def PortReg.base : PortReg → Nat
  | .id => 0x000
  | .ctrl => 0x004
  | .status => 0x008
  | .cmd => 0x00C
  | .t => 0x010
  | .iter => 0x018
  | .progInterval => 0x020
  | .seed => 0x040
  | .l => 0x060
  | .rem => 0x0A0
  | .w r => 0x100 + 0x100 * r.val
  | .n => 0x900

/-- The windows of the address map in the order of spec/20_memory.md R61. -/
def addressMap : List PortReg :=
  [.id, .ctrl, .status, .cmd, .t, .iter, .progInterval, .seed, .l, .rem,
   .w 0, .w 1, .w 2, .w 3, .w 4, .w 5, .w 6, .w 7, .n]

/-- The offset lies in the register's window. -/
def PortReg.covers (r : PortReg) (a : Offset) : Bool := r.base ≤ a.toNat && a.toNat < r.base + r.size

/-- The register whose window holds an offset, and the byte's index in it; none for a reserved offset
(spec/20_memory.md R61). -/
def locate (a : Offset) : Option (PortReg × Nat) :=
  (addressMap.find? (·.covers a)).map fun r => (r, a.toNat - r.base)

/-- A register's value as the host reads it (spec/20_memory.md R64, R65). -/
def State.portValue (s : State) : PortReg → Nat
  | .id => Config.id.toNat
  | .ctrl => s.ctrlWord
  | .status => s.statusWord
  | .cmd => s.cmd.toNat
  | .t => s.t.toNat
  | .iter => s.iter.toNat
  | .progInterval => s.progInterval.toNat
  | .seed => s.seed.toNat
  | .l => s.l.toNat
  | .rem => s.rem.toNat
  | .w r => (s.wreg r).toNat
  | .n => Config.N

/-- A register's window as bytes, big-endian (spec/20_memory.md R64, R65). -/
def State.image (s : State) (r : PortReg) : List Byte := intToBytes (s.portValue r) r.size

/-- The byte the host sees at an offset; none where the offset is reserved. There is no memory beside the registers'
windows (spec/20_memory.md R60, R61, R74; log entry 11). -/
def State.portByte (s : State) (a : Offset) : Option Byte :=
  (locate a).map fun (r, k) => byteAt (s.portValue r) r.size k

/-- The sizes and alignment the port takes (spec/20_memory.md R68). -/
def legalAccess (a : Offset) (size : Nat) : Bool := size == 1 || (size == 4 && a.toNat % 4 == 0)

/-- A host read (spec/20_memory.md R62): the bytes at the offset, the first the most significant, or ERROR with
data 0. It changes no register. -/
def State.hostRead (s : State) (a : Offset) (size : Nat) : State :=
  if legalAccess a size then
    match locate a with
    | some (r, k) =>
      s.answer (.read .okay (BitVec.ofNat 32 (bytesToInt (((s.image r).drop k).take size))))
    | none => s.answer (.read .error 0#32)
  else s.answer (.read .error 0#32)

/-- The read-only targets (spec/20_memory.md R67). -/
def PortReg.readOnly : PortReg → Bool
  | .id => true
  | .iter => true
  | .rem => true
  | .n => true
  | _ => false

/-- The targets a write may reach while a command runs (spec/20_memory.md R66). -/
def PortReg.alwaysWritable : PortReg → Bool
  | .ctrl => true
  | .status => true
  | _ => false

/-- Where a write the port takes lands, after the checks of spec/20_memory.md R63 in their order: size and alignment
(R68), a reserved or read-only target (R67), a write while BUSY (R66). None is ERROR. -/
def State.writeTarget (s : State) (a : Offset) (size : Nat) : Option (PortReg × Nat) :=
  if legalAccess a size then
    match locate a with
    | none => none
    | some (r, k) =>
      if r = .cmd ∧ size ≠ 4 then none
      else if r.readOnly then none
      else if s.busy ∧ ¬ r.alwaysWritable then none
      else some (r, k)
  else none

/-- A register takes a value from its window (spec/20_memory.md R64); the registers that no data write reaches keep
theirs. -/
def State.setPort (s : State) (r : PortReg) (v : Nat) : State :=
  match r with
  | .t => { s with t := BitVec.ofNat 64 v }
  | .progInterval => { s with progInterval := BitVec.ofNat 32 v }
  | .seed => { s with seed := BitVec.ofNat 256 v }
  | .l => { s with l := BitVec.ofNat 288 v }
  | .w i => s.setW i v
  | .id => s
  | .ctrl => s
  | .status => s
  | .cmd => s
  | .iter => s
  | .rem => s
  | .n => s

/-- The bytes of a write arrive at index `k` of a register other than CMD. CTRL and STATUS take the byte with bits
7:0, if the write covers it, by their field rules (spec/20_memory.md R65); a data window stores the bytes (R64). -/
def State.storeBytes (s : State) (r : PortReg) (k : Nat) (bs : List Byte) : State :=
  match r with
  | .ctrl => match bs[3 - k]? with
    | some b => s.writeCtrl b
    | none => s
  | .status => match bs[3 - k]? with
    | some b => s.writeStatus b
    | none => s
  | _ => s.setPort r (bytesToInt (splice (s.image r) k bs))

/-- The bytes of a write's datum, the first the most significant (spec/20_memory.md R63); a 1-byte write carries bits
7:0. -/
def dataBytes (size : Nat) (v : Word) : List Byte := intToBytes v.toNat size

end Sys2Proof.Machine
end

