-- ==== Sys2Proof/Machine/Agents.lean ====
section
/-! DEFINITION. What each agent's move does (spec/00_scope.md R14): a host transaction, a sequencer step, an edge of
rst_n. -/

namespace Sys2Proof.Machine

/-- A write of word `c` to CMD while idle (spec/10_state.md R43): an ILLEGAL word is stored and completes at once with
EILL (spec/30_encoding.md R95); a command runs its accept. -/
def issueCommand (c : Word) (s : State) : Host.Outcome State Fault Refusal :=
  match decode c with
  | .ok i => exec i s
  | .illegal _ => .next ((s.latchCommand c).complete .eill)

/-- A host write (spec/20_memory.md R63): ERROR and no effect, or OKAY and the target's effect. -/
def hostWrite (a : Offset) (size : Nat) (v : Word) (s : State) : Host.Outcome State Fault Refusal :=
  match s.writeTarget a size with
  | none => .next (s.answer (.write .error))
  | some (.cmd, _) => issueCommand v (s.answer (.write .okay))
  | some (r, k) => .next ((s.answer (.write .okay)).storeBytes r k (dataBytes size v))

/-- The sequencer's move: its next step while a command runs, nothing while idle (spec/10_state.md R44,
spec/60_exceptions.md R223). -/
def sequencerMove (s : State) : Host.Outcome State Fault Refusal :=
  match s.phase with
  | .run => exec s.op s
  | .idle => .next s

/-- rst_n rises: after a reset the state is that of spec/70_reset_and_hazards.md R230, and the scheduler's moves go
on. -/
def State.resetHigh (s : State) : State :=
  if s.rst = .held then State.reset.withSched s.sched else s

/-- One move. While rst_n is low the core takes no sequencer step and answers no transaction
(spec/70_reset_and_hazards.md R230); before the first reset a host transaction faults (R231). -/
def act (m : Action) (s : State) : Host.Outcome State Fault Refusal :=
  match m, s.rst with
  | .resetLow, _ => .next { s with rst := .held }
  | .resetHigh, _ => .next s.resetHigh
  | .sequencer, .released => sequencerMove s
  | .sequencer, .held => .next s
  | .sequencer, .unset => .next s
  | .read a n, .released => .next (s.hostRead a n)
  | .read _ _, .held => .next (s.answer .none)
  | .read _ _, .unset => .fault .beforeReset
  | .write a n v, .released => hostWrite a n v s
  | .write _ _ _, .held => .next (s.answer .none)
  | .write _ _ _, .unset => .fault .beforeReset

/-- The next move of the machine: the first one scheduled; with none scheduled, the sequencer's
(spec/00_scope.md R14; log entry 1). -/
def nextMove (s : State) : Host.Outcome State Fault Refusal :=
  match s.sched with
  | [] => act .sequencer s
  | m :: rest => act m (s.withSched rest)

end Sys2Proof.Machine
end

