-- ==== Sys2Proof/Machine/Step.lean ====
section
/-! DEFINITION. One step of the machine, and a state whose next step issues a given word. -/

namespace Sys2Proof.Machine

/-- One atomic step (spec/00_scope.md R14). -/
def step (s : State) : Host.Outcome State Fault Refusal := nextMove s

/-- The state whose very next step is the host's 4-byte write of the word to CMD (spec/10_state.md R43,
spec/30_encoding.md R90): the core fetches nothing (spec/20_memory.md R73), so this stands for the host that issues
the command (log entry 7). The core is out of reset and idle, or the port would not take the write. -/
def State.withFetchWord (s : State) (nbits w : Nat) : State :=
  { s with
    rst := .released
    phase := .idle
    sched := .write 0x00C#12 4 (BitVec.ofNat 32 (w % 2 ^ nbits)) :: s.sched }

end Sys2Proof.Machine
end

