-- ==== Sys2Proof/Safety.lean ====
section
/-! DEFINITION. The terms in which claims about runs are made: the parts of each command, runs of one command, what a
host cannot see, the check table of spec/60_exceptions.md R202, and the invariant of the sequencer. -/

namespace Sys2Proof.Machine

/-- The parts of each command, as its rule gives them. -/
def commandOf : Instr → Command
  | .sqrmod rd rs1 => sqrmodCommand rd rs1
  | .mulmod rd rs1 rs2 => mulmodCommand rd rs1 rs2
  | .modexp rd rs1 rs2 => modexpCommand rd rs1 rs2
  | .reduce rd rs1 => reduceCommand rd rs1
  | .eval rd rs1 => evalCommand rd rs1
  | .prove rd rs1 => proveCommand rd rs1
  | .h2py rs1 => h2pyCommand rs1
  | .h2ps => h2psCommand
  | .ptest => ptestCommand

/-- `k` atomic steps of command `i`, with no host transaction between them. -/
def execSteps (i : Instr) : Nat → State → Host.Outcome State Fault Refusal
  | 0, s => .next s
  | k + 1, s =>
    match exec i s with
    | .next t => execSteps i k t
    | o => o

/-- The state without the sequencer registers that only a running command uses: op, snap, loop and done_loop
(spec/10_state.md R36). While the core is idle nothing reads them. -/
def State.hideSequencer (s : State) : State :=
  { s with op := .sqrmod 0 0, snap := Snap.empty, loop := Loop.empty, doneLoop := false }

/-- The ILLEGAL command words, by the numbers of their fields (spec/30_encoding.md R91, R92, R95). -/
abbrev illegalWord (c : Word) : Prop :=
  let opc := c.toNat % 64
  let rd := c.toNat / 2 ^ 6 % 8
  let rs1 := c.toNat / 2 ^ 9 % 8
  let rs2 := c.toNat / 2 ^ 12 % 8
  let m := c.toNat / 2 ^ 15 % 2
  opc ∉ [0x01, 0x02, 0x03, 0x04, 0x08, 0x09, 0x10, 0x11] ∨
    (opc ∈ [0x01, 0x04, 0x08, 0x09] ∧ rs2 ≠ 0) ∨
    (opc = 0x10 ∧ m = 0 ∧ (rd ≠ 0 ∨ rs2 ≠ 0)) ∨
    (opc = 0x10 ∧ m = 1 ∧ (rd ≠ 0 ∨ rs1 ≠ 0 ∨ rs2 ≠ 0)) ∨
    (opc = 0x11 ∧ (rd ≠ 0 ∨ rs1 ≠ 0 ∨ rs2 ≠ 0)) ∨
    c.toNat / 2 ^ 16 ≠ 0 ∨
    (m = 1 ∧ opc ≠ 0x10)

/-- The register a 3-bit field of a command word names (spec/30_encoding.md R91). -/
def fieldReg (c : Word) (low : Nat) : WReg := ⟨c.toNat / 2 ^ low % 8, Nat.mod_lt _ (by decide)⟩

/-- `check(c)` as spec/60_exceptions.md R202 lists it, on the fields of the word and the registers. -/
def checkWord (c : Word) (s : State) : ErrCode :=
  let opc := c.toNat % 64
  if illegalWord c then .eill
  else if opc ∈ [0x08, 0x09] ∧ s.t.toNat = 0 then .earg
  else if opc = 0x09 ∧ s.l.toNat < 2 then .edom
  else if opc ∈ [0x01, 0x02, 0x03, 0x08, 0x09] ∧ Config.N ≤ (s.wreg (fieldReg c 9)).toNat then .erange
  else if opc = 0x02 ∧ Config.N ≤ (s.wreg (fieldReg c 12)).toNat then .erange
  else .ok

/-- The table of spec/70_reset_and_hazards.md R230: what every register that has a reset value there holds. -/
def State.atReset (s : State) : Prop :=
  (∀ r, s.wreg r = 0#2048) ∧ s.t = 0#64 ∧ s.iter = 0#64 ∧ s.l = 0#288 ∧ s.rem = 0#288 ∧ s.seed = 0#256 ∧
    s.ctrlWord = 0 ∧ s.statusWord = 0 ∧ s.cmd = 0#32 ∧ s.progInterval = 1000#32 ∧ s.phase = .idle ∧
    s.abortPending = false ∧ s.irq = false ∧ s.portValue .id = 0x46524301 ∧ s.portValue .n = Config.N

/-- The port offsets outside every window (spec/20_memory.md R61). -/
def reservedOffset (a : Offset) : Prop :=
  0x024 ≤ a.toNat ∧ a.toNat ≤ 0x03F ∨ 0x084 ≤ a.toNat ∧ a.toNat ≤ 0x09F ∨
    0x0C4 ≤ a.toNat ∧ a.toNat ≤ 0x0FF ∨ 0xA00 ≤ a.toNat

/-- The port offsets of the read-only registers ID, ITER, REM and N (spec/20_memory.md R61, R67). -/
def readOnlyOffset (a : Offset) : Prop :=
  a.toNat ≤ 0x003 ∨ 0x018 ≤ a.toNat ∧ a.toNat ≤ 0x01F ∨
    0x0A0 ≤ a.toNat ∧ a.toNat ≤ 0x0C3 ∨ 0x900 ≤ a.toNat ∧ a.toNat ≤ 0x9FF

/-- The port offsets of the registers a host writes byte by byte: T, PROG_INTERVAL, SEED, L and W0 to W7
(spec/20_memory.md R61, R64). -/
def dataOffset (a : Offset) : Prop :=
  0x010 ≤ a.toNat ∧ a.toNat ≤ 0x017 ∨ 0x020 ≤ a.toNat ∧ a.toNat ≤ 0x023 ∨
    0x040 ≤ a.toNat ∧ a.toNat ≤ 0x083 ∨ 0x100 ≤ a.toNat ∧ a.toNat ≤ 0x8FF

/-- The sizes and alignment of spec/20_memory.md R68. -/
def lawfulAccess (a : Offset) (size : Nat) : Prop := size = 1 ∨ size = 4 ∧ a.toNat % 4 = 0

/-- A host write breaks a port rule: width or alignment (spec/20_memory.md R68), CMD by less than a word (R68), a
reserved or read-only target (R67), or a write while BUSY to anything but CTRL or STATUS (R66). -/
def brokenWrite (s : State) (a : Offset) (size : Nat) : Prop :=
  ¬ lawfulAccess a size ∨ (0x00C ≤ a.toNat ∧ a.toNat ≤ 0x00F ∧ size ≠ 4) ∨ reservedOffset a ∨ readOnlyOffset a ∨
    (s.phase = .run ∧ ¬ (0x004 ≤ a.toNat ∧ a.toNat ≤ 0x00B))

/-- The working register a command writes, if it writes one (spec/10_state.md R21). -/
def destination : Instr → Option WReg
  | .sqrmod rd _ => some rd
  | .mulmod rd _ _ => some rd
  | .modexp rd _ _ => some rd
  | .reduce rd _ => some rd
  | .eval rd _ => some rd
  | .prove rd _ => some rd
  | .h2py _ => none
  | .h2ps => none
  | .ptest => none

/-- What the loop variables of a running command are after the iterations done so far: the invariants of
spec/40_modarith.md R113, spec/41_eval.md R140, spec/43_prove.md R181 and spec/42_hash_to_prime.md R158, R159. -/
def loopInvariant (i : Instr) (n : Snap) (p : Loop) (iter : Nat) : Prop :=
  match i with
  | .modexp _ _ _ =>
    n.rs1.toNat < Config.N ∧ p.j ≤ bitlen n.rs2.toNat ∧ iter = p.j ∧
      p.result = n.rs1.toNat ^ (n.rs2.toNat % 2 ^ p.j) % Config.N ∧
      p.sq = n.rs1.toNat ^ 2 ^ p.j % Config.N
  | .eval _ _ =>
    n.rs1.toNat < Config.N ∧ 1 ≤ n.t.toNat ∧ p.i ≤ n.t.toNat ∧ iter = p.i ∧
      p.acc = n.rs1.toNat ^ 2 ^ p.i % Config.N
  | .prove _ _ =>
    n.rs1.toNat < Config.N ∧ 1 ≤ n.t.toNat ∧ 2 ≤ n.l.toNat ∧ p.i ≤ n.t.toNat ∧ iter = p.i ∧
      p.remainder = 2 ^ p.i % n.l.toNat ∧
      p.proof = n.rs1.toNat ^ (2 ^ p.i / n.l.toNat) % Config.N
  | .h2py _ => searchInvariant (prefixCandidate n.rs1.toNat) p iter
  | .h2ps => searchInvariant n.seed.toNat p iter
  | .sqrmod _ _ => iter = 0 ∧ n.rs1.toNat < Config.N
  | .mulmod _ _ _ => iter = 0 ∧ n.rs1.toNat < Config.N ∧ n.rs2.toNat < Config.N
  | .reduce _ _ => iter = 0
  | .ptest => iter = 0
where
  /-- The candidate is odd, every odd number from the initial candidate up to it was rejected, ITER counts the
  candidates examined (64 bits wide, spec/10_state.md R27), and the candidate is at most 2^256 + 297. -/
  searchInvariant (cand0 : Nat) (p : Loop) (iter : Nat) : Prop :=
    p.cand % 2 = 1 ∧ cand0 ≤ p.cand ∧ p.cand ≤ 2 ^ 256 + 297 ∧
      (∀ m, cand0 ≤ m → m < p.cand → m % 2 = 1 → isPrimeCore m = false) ∧
      (p.found = true → isPrimeCore p.cand = true) ∧
      iter = ((p.cand - (cand0 ||| 1)) / 2 + (if p.found then 1 else 0)) % 2 ^ 64

/-- The sequencer's invariant (spec/10_state.md R36, R37, R41, R43 to R46, spec/60_exceptions.md R204, R207): an idle
core holds no abort request; while a command runs, STATUS shows no completion, CMD and the snapshot are those of the
command, done_loop is up to date, and the loop variables are what the command's rule says. -/
def State.Inv (s : State) : Prop :=
  s.rst ≠ .unset ∧ s.err ≠ .einternal ∧
  (s.phase = .idle → s.abortPending = false) ∧
  (s.phase = .run →
    s.done = false ∧ s.err = .ok ∧ s.cmd = encode s.op ∧
    s.snap = (commandOf s.op).snap s ∧
    s.doneLoop = (commandOf s.op).done s.snap s.loop ∧
    loopInvariant s.op s.snap s.loop s.iter.toNat)

end Sys2Proof.Machine
end

