-- ==== Sys2Proof/Certificates/Slice0/Obligations.lean ====
section
/-! DEFINITION. The statements for the provers, from the numbered rules of spec/. Each docstring names the rule. -/

open Sys2Proof Sys2Proof.Machine

/-! ## Encoding -/

/-- Decoding and encoding agree in both directions: a word decodes to a command exactly when it is the word the
assembly syntax gives that command, so no bit of an encoding is dropped (spec/30_encoding.md R92 to R97). -/
def Obligations.DecodeIsExactlyInverseToEncode : Prop :=
  ∀ (c : Word) (i : Instr), decode c = .ok i ↔ c = encode i

/-- Decoding rejects exactly the words that spec/30_encoding.md R92 and R95 call ILLEGAL, given by field numbers. -/
def Obligations.DecodeRejectsExactlyTheIllegalWords : Prop :=
  ∀ c : Word, (∃ why, decode c = .illegal why) ↔ illegalWord c

/-- The words of the assembly lines, as sums of opcode and operands at their places (spec/30_encoding.md R91, R97). -/
def Obligations.EncodeWritesTheAssemblyWords : Prop :=
  (∀ d s, (encode (.sqrmod d s)).toNat = 0x01 + 2 ^ 6 * d.val + 2 ^ 9 * s.val) ∧
  (∀ d a b, (encode (.mulmod d a b)).toNat = 0x02 + 2 ^ 6 * d.val + 2 ^ 9 * a.val + 2 ^ 12 * b.val) ∧
  (∀ d b e, (encode (.modexp d b e)).toNat = 0x03 + 2 ^ 6 * d.val + 2 ^ 9 * b.val + 2 ^ 12 * e.val) ∧
  (∀ d s, (encode (.reduce d s)).toNat = 0x04 + 2 ^ 6 * d.val + 2 ^ 9 * s.val) ∧
  (∀ d s, (encode (.eval d s)).toNat = 0x08 + 2 ^ 6 * d.val + 2 ^ 9 * s.val) ∧
  (∀ d s, (encode (.prove d s)).toNat = 0x09 + 2 ^ 6 * d.val + 2 ^ 9 * s.val) ∧
  (∀ s, (encode (.h2py s)).toNat = 0x10 + 2 ^ 9 * s.val) ∧
  (encode .h2ps).toNat = 0x10 + 2 ^ 15 ∧
  (encode .ptest).toNat = 0x11

/-- Words the spec writes out decode to the commands it writes beside them (spec/30_encoding.md R97;
spec/95_test_vectors.md Parts 4 to 7). -/
def Obligations.WrittenOutWordsDecode : Prop :=
  decode 0x00000041#32 = .ok (.sqrmod 1 0) ∧ decode 0x000069C2#32 = .ok (.mulmod 7 4 6) ∧
  decode 0x00002083#32 = .ok (.modexp 2 0 2) ∧ decode 0x00000044#32 = .ok (.reduce 1 0) ∧
  decode 0x00000048#32 = .ok (.eval 1 0) ∧ decode 0x00000089#32 = .ok (.prove 2 0) ∧
  decode 0x00000210#32 = .ok (.h2py 1) ∧ decode 0x00008010#32 = .ok .h2ps ∧ decode 0x00000011#32 = .ok .ptest

/-! ## Steps -/

/-- A step runs the decoded command: when the core is out of reset and idle and the next move is the host's 4-byte
write of a word to CMD that decodes to `i`, the step is `exec i` at the state with that move taken off the schedule
and the write answered OKAY (spec/10_state.md R43, spec/20_memory.md R63). -/
def Obligations.StepRunsTheIssuedCommand : Prop :=
  ∀ (s : State) (c : Word) (i : Instr) (rest : List Action),
    s.rst = .released → s.phase = .idle → s.sched = .write 0x00C#12 4 c :: rest → decode c = .ok i →
      step s = exec i { s with sched := rest, resp := .write .okay }

/-- A step runs the running command: when the core is out of reset and a command runs, and the next move is the
sequencer's or no move is scheduled, the step is `exec` of that command (spec/10_state.md R44, spec/00_scope.md R14;
that the sequencer moves when nothing is scheduled is the model's choice, log entry 1). -/
def Obligations.StepRunsTheRunningCommand : Prop :=
  ∀ s : State, s.rst = .released → s.phase = .run →
    (s.sched = [] → step s = exec s.op s) ∧
    (∀ rest, s.sched = .sequencer :: rest → step s = exec s.op { s with sched := rest })

/-- An ILLEGAL word written to CMD is stored and completes at once with EILL, and nothing else changes but what every
accept clears (spec/30_encoding.md R95, spec/10_state.md R43). The word 0 is one. -/
def Obligations.IllegalWordCompletesWithEill : Prop :=
  illegalWord 0#32 ∧
  ∀ (s : State) (c : Word) (rest : List Action),
    s.rst = .released → s.phase = .idle → s.sched = .write 0x00C#12 4 c :: rest → illegalWord c →
      step s = .next { s with sched := rest, resp := .write .okay, cmd := c, err := .eill, done := true,
                              iter := 0#64, abortPending := false }

/-- The checks at accept run in the order of spec/60_exceptions.md R202 and the first that fails gives the one code
reported; with none failing the command starts. -/
def Obligations.IssuedWordIsCheckedInOrder : Prop :=
  ∀ (s : State) (c : Word) (rest : List Action),
    s.rst = .released → s.phase = .idle → s.sched = .write 0x00C#12 4 c :: rest →
      ∃ t, step s = .next t ∧ t.err = checkWord c s ∧ t.cmd = c ∧
        (checkWord c s = .ok → t.phase = .run ∧ t.done = false) ∧
        (checkWord c s ≠ .ok → t.phase = .idle ∧ t.done = true)

/-! ## Accept, iteration, cancellation, commit -/

/-- A command whose operands fail a check completes at the accept with that code and changes nothing but CMD, ITER,
DONE and ERR (spec/60_exceptions.md R201, R202). -/
def Obligations.FailedCheckIsPrecise : Prop :=
  ∀ (i : Instr) (s : State), s.phase = .idle → s.abortPending = false → checkWord (encode i) s ≠ .ok →
    exec i s = .next { s with cmd := encode i, iter := 0#64, done := true, err := checkWord (encode i) s }

/-- The accept of a command whose operands pass: BUSY, CMD, the cleared fields and the latched operands; every other
register is unchanged (spec/10_state.md R41, R43). -/
def Obligations.AcceptStartsTheCommand : Prop :=
  ∀ (i : Instr) (s : State), s.phase = .idle → checkWord (encode i) s = .ok →
    ∃ n p d, exec i s = .next { s with cmd := encode i, iter := 0#64, done := false, err := .ok, abortPending := false,
                                       phase := .run, op := i, snap := n, loop := p, doneLoop := d } ∧
      match i with
      | .sqrmod _ a => n.rs1 = s.wreg a ∧ d = true
      | .mulmod _ a b => n.rs1 = s.wreg a ∧ n.rs2 = s.wreg b ∧ d = true
      | .modexp _ a b => n.rs1 = s.wreg a ∧ n.rs2 = s.wreg b ∧ p.result = 1 ∧ p.sq = (s.wreg a).toNat ∧ p.j = 0
      | .reduce _ a => n.rs1 = s.wreg a ∧ d = true
      | .eval _ a => n.rs1 = s.wreg a ∧ n.t = s.t ∧ p.acc = (s.wreg a).toNat ∧ p.i = 0 ∧ d = false
      | .prove _ a =>
        n.rs1 = s.wreg a ∧ n.t = s.t ∧ n.l = s.l ∧ p.remainder = 1 ∧ p.proof = 1 ∧ p.i = 0 ∧ d = false
      | .h2py a => n.rs1 = s.wreg a ∧ p.found = false ∧ d = false
      | .h2ps => n.seed = s.seed ∧ p.found = false ∧ d = false ∧ p.cand = s.seed.toNat + (s.seed.toNat + 1) % 2
      | .ptest => n.l = s.l ∧ d = true

/-- An iteration step adds one to ITER, and in that step PROG is set when PROG_INTERVAL is not 0 and divides the new
ITER; otherwise only the loop moves (spec/10_state.md R44, R47). That ITER adds one modulo 2^64, so that it is 0 after its
greatest value and that 0 is a progress event, is the model's reading of spec/10_state.md R27 (DEDUCED, log entry 16). -/
def Obligations.IterationCountsAndReportsProgress : Prop :=
  ∀ (i : Instr) (s : State), s.phase = .run → s.abortPending = false → s.doneLoop = false →
    (match i with
      | .modexp _ _ _ => True
      | .eval _ _ => True
      | .prove _ _ => True
      | .h2py _ => True
      | .h2ps => True
      | _ => False) →
    ∃ p d g, exec i s = .next { s with iter := s.iter + 1#64, prog := g, loop := p, doneLoop := d } ∧
      (g = true ↔ s.prog = true ∨
        (s.progInterval ≠ 0#32 ∧ (s.iter + 1#64).toNat % s.progInterval.toNat = 0))

/-- A pending abort cancels at the next sequencer step of any command, even when its loop is finished: ECANCEL, and no
destination is written (spec/10_state.md R44, spec/60_exceptions.md R201, R210, R211). -/
def Obligations.AbortCancelsEveryCommand : Prop :=
  ∀ (i : Instr) (s : State), s.phase = .run → s.abortPending = true →
    exec i s = .next { s with err := .ecancel, done := true, phase := .idle, abortPending := false }

/-- In a sequencer move, a working register, L, REM or PRIME changes only in a commit: the command runs with its loop
finished and no abort pending, and the same step completes it with OK (spec/10_state.md R45). -/
def Obligations.DestinationsChangeOnlyAtCommit : Prop :=
  ∀ s t : State, (s.sched = [] ∨ ∃ rest, s.sched = .sequencer :: rest) → step s = .next t →
    (t.w ≠ s.w ∨ t.l ≠ s.l ∨ t.rem ≠ s.rem ∨ t.prime ≠ s.prime) →
      s.phase = .run ∧ s.abortPending = false ∧ s.doneLoop = true ∧
        t.phase = .idle ∧ t.done = true ∧ t.err = .ok

/-- The frame of every command, whichever of its steps is taken: no working register but its destination changes;
only PROVE changes REM; only H2PY and H2PS change L; only H2PY, H2PS and PTEST change PRIME; no command changes T, SEED,
PROG_INTERVAL, IE, PIE or the reset line; PROG is never cleared (spec/10_state.md R21, R23 to R26, R30 to R32, R35). -/
def Obligations.CommandsWriteOnlyTheirDestinations : Prop :=
  ∀ (i : Instr) (s t : State), exec i s = .next t →
    (∀ q, destination i ≠ some q → t.wreg q = s.wreg q) ∧
    (t.rem ≠ s.rem → ∃ rd rs1, i = .prove rd rs1) ∧
    (t.l ≠ s.l → (∃ rs1, i = .h2py rs1) ∨ i = .h2ps) ∧
    (t.prime ≠ s.prime → (∃ rs1, i = .h2py rs1) ∨ i = .h2ps ∨ i = .ptest) ∧
    t.t = s.t ∧ t.seed = s.seed ∧ t.progInterval = s.progInterval ∧ t.ie = s.ie ∧ t.pie = s.pie ∧
    t.rst = s.rst ∧ t.sched = s.sched ∧ t.resp = s.resp ∧ (s.prog = true → t.prog = true)

/-- STATUS.PRIME is written only at the commit of PTEST, with the verdict, and at the commit of H2PY or H2PS, with 1;
apart from reset no other step changes it (spec/10_state.md R32, spec/70_reset_and_hazards.md R230). -/
def Obligations.PrimeIsWrittenOnlyByPrimalityCommits : Prop :=
  (∀ s t : State, step s = .next t → t.prime ≠ s.prime →
    (s.phase = .run ∧ s.abortPending = false ∧ s.doneLoop = true ∧ t.phase = .idle ∧ t.err = .ok ∧
      (s.op = .ptest ∨ s.op = .h2ps ∨ ∃ r, s.op = .h2py r)) ∨
    (s.rst = .held ∧ ∃ rest, s.sched = .resetHigh :: rest)) ∧
  (∀ s : State, s.phase = .run → s.abortPending = false → s.doneLoop = true →
    (∃ t, exec .ptest s = .next t ∧ t.prime = isPrime s.snap.l.toNat) ∧
    (∃ t, exec .h2ps s = .next t ∧ t.prime = true) ∧
    (∀ r, ∃ t, exec (.h2py r) s = .next t ∧ t.prime = true))

/-- A completion of any kind leaves DONE set and BUSY clear and keeps CMD, ITER and PROG, and irq follows CTRL.IE: the
end of a running command, and a CMD write whose word is ILLEGAL or fails a check, which holds ITER 0. A CMD write whose
checks pass clears DONE instead, and irq drops unless PROG and PIE hold it. Writing 1 to DONE or PROG drops what it held
of irq; setting IE or PIE raises irq at once where the source is pending. At every instant irq is the level of the two
sources (spec/10_state.md R38, R46, spec/60_exceptions.md R206, R207, R209, R210). -/
def Obligations.CompletionSignalsTheHost : Prop :=
  (∀ s : State, s.irq = ((s.done && s.ie) || (s.prog && s.pie))) ∧
  (∀ (i : Instr) (s t : State), s.phase = .run → exec i s = .next t → t.phase = .idle →
    t.done = true ∧ t.busy = false ∧ t.iter = s.iter ∧ t.cmd = s.cmd ∧ t.prog = s.prog ∧
      t.irq = (s.ie || (s.prog && s.pie))) ∧
  (∀ (s : State) (c : Word) (rest : List Action),
    s.rst = .released → s.phase = .idle → s.sched = .write 0x00C#12 4 c :: rest →
    ∃ t, step s = .next t ∧ t.cmd = c ∧ t.iter = 0#64 ∧ t.prog = s.prog ∧
      (checkWord c s ≠ .ok → t.done = true ∧ t.busy = false ∧ t.irq = (s.ie || (s.prog && s.pie))) ∧
      (checkWord c s = .ok → t.done = false ∧ t.busy = true ∧ t.irq = (s.prog && s.pie))) ∧
  (∀ (s : State) (a : Offset) (n : Nat) (v : Word) (rest : List Action),
    s.rst = .released → s.sched = .write a n v :: rest →
    (a = 0x008#12 ∧ n = 4 ∨ a = 0x00B#12 ∧ n = 1 →
      ∃ t, step s = .next t ∧ t.done = (s.done && !v.getLsbD 1) ∧ t.prog = (s.prog && !v.getLsbD 2) ∧
        t.irq = ((s.done && !v.getLsbD 1 && s.ie) || (s.prog && !v.getLsbD 2 && s.pie))) ∧
    (a = 0x004#12 ∧ n = 4 ∨ a = 0x007#12 ∧ n = 1 →
      ∃ t, step s = .next t ∧ t.done = s.done ∧ t.prog = s.prog ∧
        t.irq = ((s.done && v.getLsbD 0) || (s.prog && v.getLsbD 1))))

/-! ## What each command computes: from the accept to the commit -/

/-- SQRMOD writes the square of its operand modulo N, in an accept and a commit, and changes nothing else but CMD, ITER,
DONE and ERR (spec/40_modarith.md R111). -/
def Obligations.SqrmodComputes : Prop :=
  ∀ (rd rs1 : WReg) (s : State), s.phase = .idle → s.abortPending = false → (s.wreg rs1).toNat < Config.N →
    ∃ t1 t2, exec (.sqrmod rd rs1) s = .next t1 ∧ exec (.sqrmod rd rs1) t1 = .next t2 ∧
      t2.hideSequencer =
        { s.hideSequencer with
          w := s.w.set rd (BitVec.ofNat 2048 ((s.wreg rs1).toNat ^ 2 % Config.N))
          cmd := encode (.sqrmod rd rs1), iter := 0#64, done := true, err := .ok }

/-- MULMOD writes the product of its operands modulo N, in an accept and a commit, and changes nothing else but CMD,
ITER, DONE and ERR (spec/40_modarith.md R112). -/
def Obligations.MulmodComputes : Prop :=
  ∀ (rd rs1 rs2 : WReg) (s : State), s.phase = .idle → s.abortPending = false →
    (s.wreg rs1).toNat < Config.N → (s.wreg rs2).toNat < Config.N →
    ∃ t1 t2, exec (.mulmod rd rs1 rs2) s = .next t1 ∧ exec (.mulmod rd rs1 rs2) t1 = .next t2 ∧
      t2.hideSequencer =
        { s.hideSequencer with
          w := s.w.set rd (BitVec.ofNat 2048 ((s.wreg rs1).toNat * (s.wreg rs2).toNat % Config.N))
          cmd := encode (.mulmod rd rs1 rs2), iter := 0#64, done := true, err := .ok }

/-- REDUCE writes any operand's residue, the operand itself or the operand less N, in an accept and a commit, and
changes nothing else but CMD, ITER, DONE and ERR (spec/40_modarith.md R114). -/
def Obligations.ReduceComputes : Prop :=
  ∀ (rd rs1 : WReg) (s : State), s.phase = .idle → s.abortPending = false →
    ∃ t1 t2, exec (.reduce rd rs1) s = .next t1 ∧ exec (.reduce rd rs1) t1 = .next t2 ∧
      t2.hideSequencer =
        { s.hideSequencer with
          w := s.w.set rd (BitVec.ofNat 2048
            (if (s.wreg rs1).toNat < Config.N then (s.wreg rs1).toNat else (s.wreg rs1).toNat - Config.N))
          cmd := encode (.reduce rd rs1), iter := 0#64, done := true, err := .ok }

/-- PTEST writes the primality verdict of L to STATUS.PRIME, in an accept and a commit, and changes nothing else but
CMD, ITER, DONE and ERR (spec/42_hash_to_prime.md R162). -/
def Obligations.PtestComputes : Prop :=
  ∀ s : State, s.phase = .idle → s.abortPending = false →
    ∃ t1 t2, exec .ptest s = .next t1 ∧ exec .ptest t1 = .next t2 ∧
      t2.hideSequencer =
        { s.hideSequencer with
          prime := isPrime s.l.toNat, cmd := encode .ptest, iter := 0#64, done := true, err := .ok }

/-- MODEXP writes base^exponent modulo N after the accept, as many iterations as the exponent has bits, and a commit;
ITER is that number of bits, PROG is set exactly when a multiple of PROG_INTERVAL was reached, and nothing else changes
but CMD, DONE and ERR (spec/40_modarith.md R113, spec/70_reset_and_hazards.md R241). -/
def Obligations.ModexpComputes : Prop :=
  ∀ (rd rs1 rs2 : WReg) (s : State), s.phase = .idle → s.abortPending = false → (s.wreg rs1).toNat < Config.N →
    ∃ t1 t2 g, exec (.modexp rd rs1 rs2) s = .next t1 ∧
      execSteps (.modexp rd rs1 rs2) (bitlen (s.wreg rs2).toNat + 1) t1 = .next t2 ∧
      (∀ k, k ≤ bitlen (s.wreg rs2).toNat →
        ∃ u, execSteps (.modexp rd rs1 rs2) k t1 = .next u ∧ u.phase = .run ∧ u.iter.toNat = k) ∧
      (g = true ↔ s.prog = true ∨
        (s.progInterval ≠ 0#32 ∧ s.progInterval.toNat ≤ bitlen (s.wreg rs2).toNat)) ∧
      t2.hideSequencer =
        { s.hideSequencer with
          w := s.w.set rd (BitVec.ofNat 2048 ((s.wreg rs1).toNat ^ (s.wreg rs2).toNat % Config.N))
          cmd := encode (.modexp rd rs1 rs2), iter := BitVec.ofNat 64 (bitlen (s.wreg rs2).toNat), prog := g
          done := true, err := .ok }

/-- EVAL writes x^(2^T) modulo N after the accept, exactly T iterations, and a commit; after k iterations it still runs
and ITER is k; at the end ITER is T, PROG is set exactly when a multiple of PROG_INTERVAL was reached, and nothing else
changes but CMD, DONE and ERR (spec/41_eval.md R140, R141, spec/70_reset_and_hazards.md R241). -/
def Obligations.EvalComputes : Prop :=
  ∀ (rd rs1 : WReg) (s : State), s.phase = .idle → s.abortPending = false → 1 ≤ s.t.toNat →
    (s.wreg rs1).toNat < Config.N →
    ∃ t1 t2 g, exec (.eval rd rs1) s = .next t1 ∧ execSteps (.eval rd rs1) (s.t.toNat + 1) t1 = .next t2 ∧
      (∀ k, k ≤ s.t.toNat →
        ∃ u, execSteps (.eval rd rs1) k t1 = .next u ∧ u.phase = .run ∧ u.iter.toNat = k) ∧
      (g = true ↔ s.prog = true ∨ (s.progInterval ≠ 0#32 ∧ s.progInterval.toNat ≤ s.t.toNat)) ∧
      t2.hideSequencer =
        { s.hideSequencer with
          w := s.w.set rd (BitVec.ofNat 2048 ((s.wreg rs1).toNat ^ 2 ^ s.t.toNat % Config.N))
          cmd := encode (.eval rd rs1), iter := s.t, prog := g, done := true, err := .ok }

/-- PROVE writes x^(2^T div L) modulo N and 2^T mod L after the accept, exactly T iterations, and a commit; at the end
ITER is T, PROG is set exactly when a multiple of PROG_INTERVAL was reached, and nothing else changes but CMD, DONE and
ERR (spec/43_prove.md R181, spec/70_reset_and_hazards.md R241). -/
def Obligations.ProveComputes : Prop :=
  ∀ (rd rs1 : WReg) (s : State), s.phase = .idle → s.abortPending = false → 1 ≤ s.t.toNat → 2 ≤ s.l.toNat →
    (s.wreg rs1).toNat < Config.N →
    ∃ t1 t2 g, exec (.prove rd rs1) s = .next t1 ∧ execSteps (.prove rd rs1) (s.t.toNat + 1) t1 = .next t2 ∧
      (∀ k, k ≤ s.t.toNat →
        ∃ u, execSteps (.prove rd rs1) k t1 = .next u ∧ u.phase = .run ∧ u.iter.toNat = k) ∧
      (g = true ↔ s.prog = true ∨ (s.progInterval ≠ 0#32 ∧ s.progInterval.toNat ≤ s.t.toNat)) ∧
      t2.hideSequencer =
        { s.hideSequencer with
          w := s.w.set rd (BitVec.ofNat 2048 ((s.wreg rs1).toNat ^ (2 ^ s.t.toNat / s.l.toNat) % Config.N))
          rem := BitVec.ofNat 288 (2 ^ s.t.toNat % s.l.toNat)
          cmd := encode (.prove rd rs1), iter := s.t, prog := g, done := true, err := .ok }

/-- The search of H2PY ends: it writes to L the first odd number from the leading bytes' candidate on that the engine's
predicate accepts, at most 2^256 + 297, sets PRIME, and counts the candidates examined in ITER; PROG is set exactly when
a progress event fell on one of them, and nothing else changes but CMD, DONE and ERR
(spec/42_hash_to_prime.md R156, R158 to R160). That ITER and the counts of the progress events are taken modulo 2^64 is
the model's reading of spec/10_state.md R27 (DEDUCED, log entry 16). -/
def Obligations.H2pyComputes : Prop :=
  ∀ (rs1 : WReg) (s : State), s.phase = .idle → s.abortPending = false →
    ∃ t1 t2 g k, exec (.h2py rs1) s = .next t1 ∧ execSteps (.h2py rs1) (k + 2) t1 = .next t2 ∧
      (let start := prefixCandidate (s.wreg rs1).toNat ||| 1
       isPrimeCore (start + 2 * k) = true ∧ (∀ j, j < k → isPrimeCore (start + 2 * j) = false) ∧
       start + 2 * k ≤ 2 ^ 256 + 297 ∧
       (g = true ↔ s.prog = true ∨ ∃ j, j ≤ k ∧ s.progInterval ≠ 0#32 ∧
         (BitVec.ofNat 64 (j + 1)).toNat % s.progInterval.toNat = 0) ∧
       t2.hideSequencer =
        { s.hideSequencer with
          l := BitVec.ofNat 288 (start + 2 * k), prime := true
          cmd := encode (.h2py rs1), iter := BitVec.ofNat 64 (k + 1), prog := g, done := true, err := .ok })

/-- The search of H2PS: as H2PY's, from SEED (spec/42_hash_to_prime.md R157 to R159, R161). That ITER and the counts of
the progress events are taken modulo 2^64 is the model's reading of spec/10_state.md R27 (DEDUCED, log entry 16). -/
def Obligations.H2psComputes : Prop :=
  ∀ s : State, s.phase = .idle → s.abortPending = false →
    ∃ t1 t2 g k, exec .h2ps s = .next t1 ∧ execSteps .h2ps (k + 2) t1 = .next t2 ∧
      (let start := s.seed.toNat ||| 1
       isPrimeCore (start + 2 * k) = true ∧ (∀ j, j < k → isPrimeCore (start + 2 * j) = false) ∧
       start + 2 * k ≤ 2 ^ 256 + 297 ∧
       (g = true ↔ s.prog = true ∨ ∃ j, j ≤ k ∧ s.progInterval ≠ 0#32 ∧
         (BitVec.ofNat 64 (j + 1)).toNat % s.progInterval.toNat = 0) ∧
       t2.hideSequencer =
        { s.hideSequencer with
          l := BitVec.ofNat 288 (start + 2 * k), prime := true
          cmd := encode .h2ps, iter := BitVec.ofNat 64 (k + 1), prog := g, done := true, err := .ok })

/-- The verification identity: where PROVE runs with the x and T that EVAL ran with, whatever L is by then, the value
EVAL writes is the proof PROVE writes raised to L, times x raised to the remainder PROVE writes, modulo N. The two
commands start in two states, as a host that derives L from y between them needs (spec/43_prove.md R183). -/
def Obligations.ProofOfEvaluationVerifies : Prop :=
  ∀ (rdy xe rdp xp : WReg) (se sp : State),
    se.phase = .idle → se.abortPending = false → sp.phase = .idle → sp.abortPending = false →
    sp.t = se.t → sp.wreg xp = se.wreg xe → 1 ≤ se.t.toNat → 2 ≤ sp.l.toNat →
    (se.wreg xe).toNat < Config.N →
    ∃ a b, execSteps (.eval rdy xe) (se.t.toNat + 2) se = .next a ∧
      execSteps (.prove rdp xp) (sp.t.toNat + 2) sp = .next b ∧ a.err = .ok ∧ b.err = .ok ∧
      ((b.wreg rdp).toNat ^ sp.l.toNat * (sp.wreg xp).toNat ^ b.rem.toNat) % Config.N = (a.wreg rdy).toNat

/-! ## Arithmetic -/

/-- The divider step: exact quotient bit and remainder of 2r by L, the bit 0 or 1 and the remainder below L
(spec/43_prove.md R180). -/
def Obligations.DivstepIsExact : Prop :=
  ∀ r l : Nat, 2 ≤ l → r < l →
    (divstep r l).1 = 2 * r / l ∧ (divstep r l).1 ≤ 1 ∧ (divstep r l).2 = 2 * r % l ∧ (divstep r l).2 < l

/-- The square-and-multiply exponentiation of the primality engine is the exact residue
(spec/42_hash_to_prime.md R153). -/
def Obligations.PowModIsExact : Prop :=
  ∀ a d n : Nat, powMod a d n = a ^ d % n

/-- A Miller–Rabin round passes exactly when, for n - 1 = d * 2^s with d odd, the witness's power a^d is 1 or one of its
first s repeated squares is n - 1, modulo n (spec/42_hash_to_prime.md R153). -/
def Obligations.MillerRabinRoundIsTheStrongTest : Prop :=
  ∀ n i d e : Nat, 5 ≤ n → n % 2 = 1 → n - 1 = d * 2 ^ e → d % 2 = 1 →
    (roundPass n i = true ↔
      witness n i ^ d % n = 1 ∨ ∃ j, j < e ∧ witness n i ^ (d * 2 ^ j) % n = n - 1)

/-- The witness of a round is the digest of the candidate's bytes and the 4-byte index, reduced modulo n - 4, plus 2; so
it lies in [2, n - 3] (spec/42_hash_to_prime.md R151, spec/90_conflicts.md C2). -/
def Obligations.WitnessInRange : Prop :=
  ∀ n i : Nat, 5 ≤ n →
    witness n i = bytesToInt (sha256 (intBytes n ++ intToBytes i 4)) % (n - 4) + 2 ∧
      2 ≤ witness n i ∧ witness n i ≤ n - 3

/-- The engine never rejects a prime: PTEST's predicate accepts every prime number, and the search's predicate every
odd one (spec/42_hash_to_prime.md R154, R155). -/
def Obligations.PrimesAreNeverRejected : Prop :=
  ∀ n : Nat, Nat.Prime n → isPrime n = true ∧ (n ≠ 2 → isPrimeCore n = true)

/-- The codec: `bytesToInt` is big-endian, `intToBytes` gives the bytes of `byteAt` in order, a value that fits comes back
from its bytes and a byte string from its value; the minimum-length bytes have no leading zero byte unless the value is
0, which is one zero byte (spec/00_scope.md R9). -/
def Obligations.CodecRoundTrips : Prop :=
  bytesToInt [] = 0 ∧
  (∀ (x : Byte) (b : List Byte), bytesToInt (x :: b) = x.toNat * 256 ^ b.length + bytesToInt b) ∧
  (∀ v w k : Nat, k < w → (intToBytes v w)[k]? = some (byteAt v w k)) ∧
  (∀ v w : Nat, v < 256 ^ w → bytesToInt (intToBytes v w) = v ∧ (intToBytes v w).length = w) ∧
  (∀ b : List Byte, intToBytes (bytesToInt b) b.length = b) ∧
  (∀ v : Nat, bytesToInt (intBytes v) = v) ∧ intBytes 0 = [0x00#8] ∧
  (∀ v : Nat, 0 < v → (intBytes v).head? ≠ some 0#8)

/-! ## The host port -/

/-- A host read: ERROR with data 0 where the access is illegal or the offset reserved; otherwise the bytes at the
offsets, the first the most significant. It changes no register, whatever runs (spec/20_memory.md R62). -/
def Obligations.HostReadReturnsTheWindowBytes : Prop :=
  ∀ (s : State) (a : Offset) (n : Nat) (rest : List Action), s.rst = .released → s.sched = .read a n :: rest →
    (¬ lawfulAccess a n ∨ reservedOffset a →
      step s = .next { s with sched := rest, resp := .read .error 0#32 }) ∧
    (lawfulAccess a n ∧ ¬ reservedOffset a →
      ∃ d : Word, step s = .next { s with sched := rest, resp := .read .okay d } ∧ d.toNat < 256 ^ n ∧
        ∀ j, j < n → s.portByte (a + BitVec.ofNat 12 j) = some (byteAt d.toNat n j))

/-- A register's window holds its value, big-endian and zero-padded, in as many bytes as the address map gives it; and,
row by row of the address map, the byte at each offset is that byte of the register the row names, and no byte is at a
reserved offset (spec/20_memory.md R61, R64, R65). -/
def Obligations.WindowHoldsTheRegisterValue : Prop :=
  (∀ (s : State) (r : PortReg), (s.image r).length = r.size ∧ bytesToInt (s.image r) = s.portValue r ∧
    ∀ k, k < r.size → s.portByte (BitVec.ofNat 12 (r.base + k)) = (s.image r)[k]?) ∧
  ∀ s : State,
    (∀ k, k < 4 → s.portByte (BitVec.ofNat 12 (0x000 + k)) = some (byteAt 0x46524301 4 k)) ∧
    (∀ k, k < 4 → s.portByte (BitVec.ofNat 12 (0x004 + k)) = some (byteAt (s.ie.toNat + 2 * s.pie.toNat) 4 k)) ∧
    (∀ k, k < 4 → s.portByte (BitVec.ofNat 12 (0x008 + k)) = some (byteAt s.statusWord 4 k)) ∧
    (∀ k, k < 4 → s.portByte (BitVec.ofNat 12 (0x00C + k)) = some (byteAt s.cmd.toNat 4 k)) ∧
    (∀ k, k < 8 → s.portByte (BitVec.ofNat 12 (0x010 + k)) = some (byteAt s.t.toNat 8 k)) ∧
    (∀ k, k < 8 → s.portByte (BitVec.ofNat 12 (0x018 + k)) = some (byteAt s.iter.toNat 8 k)) ∧
    (∀ k, k < 4 → s.portByte (BitVec.ofNat 12 (0x020 + k)) = some (byteAt s.progInterval.toNat 4 k)) ∧
    (∀ k, k < 32 → s.portByte (BitVec.ofNat 12 (0x040 + k)) = some (byteAt s.seed.toNat 32 k)) ∧
    (∀ k, k < 36 → s.portByte (BitVec.ofNat 12 (0x060 + k)) = some (byteAt s.l.toNat 36 k)) ∧
    (∀ k, k < 36 → s.portByte (BitVec.ofNat 12 (0x0A0 + k)) = some (byteAt s.rem.toNat 36 k)) ∧
    (∀ (r : WReg) (k : Nat), k < 256 →
      s.portByte (BitVec.ofNat 12 (0x100 + 0x100 * r.val + k)) = some (byteAt s.w[r].toNat 256 k)) ∧
    (∀ k, k < 256 → s.portByte (BitVec.ofNat 12 (0x900 + k)) = some (byteAt Config.N 256 k)) ∧
    (∀ a, reservedOffset a → s.portByte a = none)

/-- A host write into a data window while idle: its bytes are replaced by the datum's, the first the most significant;
every other byte the host can see, and the sequencer, are unchanged (spec/20_memory.md R63, R64). -/
def Obligations.DataWriteReplacesItsBytes : Prop :=
  ∀ (s : State) (a : Offset) (n : Nat) (v : Word) (rest : List Action),
    s.rst = .released → s.phase = .idle → s.sched = .write a n v :: rest → lawfulAccess a n → dataOffset a →
    ∃ t, step s = .next t ∧ t.resp = .write .okay ∧ t.sched = rest ∧
      (∀ j, j < n → t.portByte (a + BitVec.ofNat 12 j) = some (byteAt v.toNat n j)) ∧
      (∀ b, (∀ j, j < n → b ≠ a + BitVec.ofNat 12 j) → t.portByte b = s.portByte b) ∧
      t.phase = s.phase ∧ t.op = s.op ∧ t.snap = s.snap ∧ t.loop = s.loop ∧ t.doneLoop = s.doneLoop ∧
      t.abortPending = s.abortPending ∧ t.rst = s.rst

/-- CTRL: a write that covers bits 7:0 sets IE and PIE from bits 0 and 1, and with bit 2 set asks for an abort only
while a command runs; a 1-byte write elsewhere in CTRL changes nothing. CTRL is 0 after reset, and ABORT and the
reserved bits read 0 (spec/10_state.md R30, R37, spec/20_memory.md R65). -/
def Obligations.ControlRegisterWrite : Prop :=
  (∀ (s : State) (a : Offset) (n : Nat) (v : Word) (rest : List Action),
    s.rst = .released → s.sched = .write a n v :: rest →
    (a = 0x004#12 ∧ n = 4 ∨ a = 0x007#12 ∧ n = 1 →
      step s = .next { s with sched := rest, resp := .write .okay, ie := v.getLsbD 0, pie := v.getLsbD 1,
                              abortPending := s.abortPending || (v.getLsbD 2 && s.phase == .run) }) ∧
    (0x004 ≤ a.toNat ∧ a.toNat ≤ 0x006 ∧ n = 1 →
      step s = .next { s with sched := rest, resp := .write .okay })) ∧
  State.reset.ctrlWord = 0 ∧
  (∀ s : State, s.ctrlWord < 4 ∧ s.ctrlWord.testBit 0 = s.ie ∧ s.ctrlWord.testBit 1 = s.pie)

/-- STATUS: a write that covers bits 7:0 clears DONE and PROG where it writes 1, and changes nothing else; a 1-byte write
elsewhere in STATUS changes nothing. As a word STATUS has BUSY, DONE, PROG, PRIME and ERR at their bits and 0 elsewhere
(spec/10_state.md R31, spec/20_memory.md R65, spec/60_exceptions.md R200). -/
def Obligations.StatusRegisterWrite : Prop :=
  (∀ (s : State) (a : Offset) (n : Nat) (v : Word) (rest : List Action),
    s.rst = .released → s.sched = .write a n v :: rest →
    (a = 0x008#12 ∧ n = 4 ∨ a = 0x00B#12 ∧ n = 1 →
      step s = .next { s with sched := rest, resp := .write .okay, done := s.done && !v.getLsbD 1,
                              prog := s.prog && !v.getLsbD 2 }) ∧
    (0x008 ≤ a.toNat ∧ a.toNat ≤ 0x00A ∧ n = 1 →
      step s = .next { s with sched := rest, resp := .write .okay })) ∧
  (∀ s : State, s.statusWord < 2 ^ 12 ∧ s.statusWord.testBit 0 = (s.phase == .run) ∧
    s.statusWord.testBit 1 = s.done ∧ s.statusWord.testBit 2 = s.prog ∧ s.statusWord.testBit 3 = s.prime ∧
    s.statusWord / 2 ^ 4 % 2 ^ 4 = 0 ∧
    s.statusWord / 2 ^ 8 = match s.err with
      | .ok => 0x0
      | .eill => 0x1
      | .earg => 0x2
      | .erange => 0x3
      | .edom => 0x4
      | .ecancel => 0x5
      | .einternal => 0xF)

/-- A host transaction that breaks a port rule gets ERROR and changes no register: a bad width or alignment, a reserved
or read-only target, CMD by less than a word, a write while BUSY to anything but CTRL or STATUS
(spec/60_exceptions.md R205, spec/20_memory.md R63, R66 to R68). -/
def Obligations.BrokenPortRuleChangesNothing : Prop :=
  (∀ (s : State) (a : Offset) (n : Nat) (v : Word) (rest : List Action),
    s.rst = .released → s.sched = .write a n v :: rest → brokenWrite s a n →
    step s = .next { s with sched := rest, resp := .write .error }) ∧
  (∀ (s : State) (a : Offset) (n : Nat) (rest : List Action),
    s.rst = .released → s.sched = .read a n :: rest → ¬ lawfulAccess a n ∨ reservedOffset a →
    step s = .next { s with sched := rest, resp := .read .error 0#32 })

/-- ID always reads 0x46524301, and a write to it gets ERROR and has no effect (spec/10_state.md R33). -/
def Obligations.IdIsConstant : Prop :=
  (∀ (s : State) (rest : List Action), s.rst = .released → s.sched = .read 0x000#12 4 :: rest →
    step s = .next { s with sched := rest, resp := .read .okay 0x46524301#32 }) ∧
  (∀ (s : State) (a : Offset) (n : Nat) (v : Word) (rest : List Action),
    s.rst = .released → a.toNat ≤ 0x003 → s.sched = .write a n v :: rest →
    step s = .next { s with sched := rest, resp := .write .error })

/-- While a command runs, a host transaction changes none of its operands, loop variables or destinations, nor ITER, CMD
or ERR; the only way to influence it is a CTRL write whose ABORT bit is 1 (spec/20_memory.md R66,
spec/70_reset_and_hazards.md R239). -/
def Obligations.BusyHostCannotTouchTheCommand : Prop :=
  ∀ (s : State) (m : Action) (rest : List Action), s.rst = .released → s.phase = .run → s.sched = m :: rest →
    ((∃ a n, m = .read a n) ∨ ∃ a n v, m = .write a n v) →
    ∃ t, step s = .next t ∧
      t = { s with sched := rest, resp := t.resp, ie := t.ie, pie := t.pie, done := t.done, prog := t.prog,
                   abortPending := t.abortPending } ∧
      (t.abortPending ≠ s.abortPending →
        ∃ a n v, m = .write a n v ∧ 0x004 ≤ a.toNat ∧ a.toNat ≤ 0x007 ∧ v.getLsbD 2 = true)

/-- Host reads change no run: any interleaving of reads with sequencer moves leaves the registers as the sequencer moves
alone leave them (spec/20_memory.md R70, R71, spec/00_scope.md R14). -/
def Obligations.HostReadsNeverChangeARun : Prop :=
  ∀ (moves : List Action) (s : State), s.rst = .released →
    (∀ m ∈ moves, m = .sequencer ∨ ∃ a n, m = .read a n) →
    ∃ t u, Sys2Proof.core.run moves.length { s with sched := moves } = .next t ∧
      Sys2Proof.core.run (moves.count .sequencer)
        { s with sched := List.replicate (moves.count .sequencer) .sequencer } = .next u ∧
      t = { u with resp := t.resp }

/-! ## Reset, faults and the invariant -/

/-- The state after reset is the table of spec/70_reset_and_hazards.md R230. -/
def Obligations.ResetStateHoldsTheTable : Prop := State.reset.atReset

/-- Reset at any time: rst_n low, any moves while it is low, rst_n high, and the core holds the table of
spec/70_reset_and_hazards.md R230, a running command abandoned; while rst_n is low no sequencer step is taken and no
transaction answered. That every register keeps its value and a transaction is lost while rst_n is low is the model's
reading (DEDUCED and DESIGN CHOICE, log entry 14). -/
def Obligations.ResetPulseGivesTheResetState : Prop :=
  (∀ (s : State) (moves rest : List Action), s.sched = .resetLow :: (moves ++ .resetHigh :: rest) →
    (∀ m ∈ moves, m ≠ .resetHigh) →
    ∃ t, Sys2Proof.core.run (moves.length + 2) s = .next t ∧ t.atReset ∧ t.rst = .released ∧ t.sched = rest) ∧
  (∀ (s : State) (m : Action) (rest : List Action), s.rst = .held → s.sched = m :: rest →
    (m = .sequencer → step s = .next { s with sched := rest }) ∧
    ((∃ a n, m = .read a n) ∨ (∃ a n v, m = .write a n v) →
      step s = .next { s with sched := rest, resp := .none }))

/-- Once reset, the core never halts or locks: every step answers a next state, whatever the schedule, and from there the
same holds (spec/60_exceptions.md R208). -/
def Obligations.NoStepStopsAfterReset : Prop :=
  ∀ s : State, s.rst ≠ .unset → ∃ t, step s = .next t ∧ t.rst ≠ .unset

/-- Before the first reset a host read, and a command, is a fault (spec/70_reset_and_hazards.md R231,
spec/93_implementation_defined.md U6; that every host write is one is the model's reading, log entry 4). -/
def Obligations.HostTransactionBeforeResetFaults : Prop :=
  ∀ (s : State) (m : Action) (rest : List Action), s.rst = .unset → s.sched = m :: rest →
    ((∃ a n, m = .read a n) ∨ ∃ a n v, m = .write a n v) → step s = .fault .beforeReset

/-- The invariant holds at reset (spec/70_reset_and_hazards.md R230; the invariant is `State.Inv`). -/
def Obligations.InvariantHoldsAtReset : Prop := State.reset.Inv

/-- Every step of the machine keeps the invariant: an idle core holds no abort request; while a command runs, STATUS
shows no completion, CMD and the snapshot are the command's, done_loop is up to date, and the loop variables are the
powers and remainders that the rules' invariants give after ITER iterations (spec/10_state.md R36, R37, R41, R43 to R46,
spec/40_modarith.md R113, spec/41_eval.md R140, spec/42_hash_to_prime.md R159, spec/43_prove.md R181). That a search's
ITER counts modulo 2^64 is the model's reading of spec/10_state.md R27 (DEDUCED, log entry 16). -/
def Obligations.StepKeepsTheInvariant : Prop :=
  ∀ s t : State, s.Inv → step s = .next t → t.Inv

/-! ## The primality predicate and the first candidate -/

/-- The primality predicate from both sides: a number above 3 is accepted by the search exactly when no prime of the
table divides it but itself and it passes all 40 rounds; the search rejects 1 and accepts 3; PTEST rejects 0, 1 and
every even number above 2, accepts 2, and agrees with the search on odd numbers
(spec/42_hash_to_prime.md R150, R152, R154, R155). -/
def Obligations.PrimalityPredicateIsTheRule : Prop :=
  (∀ n : Nat, 3 < n →
    (isPrimeCore n = true ↔
      (∀ p ∈ [3, 5, 7, 11, 13, 17, 19, 23, 29, 31, 37, 41, 43, 47, 53], p ≠ n → ¬ p ∣ n) ∧
        ∀ i, i < 40 → roundPass n i = true)) ∧
  isPrimeCore 1 = false ∧ isPrimeCore 3 = true ∧
  isPrime 0 = false ∧ isPrime 1 = false ∧ isPrime 2 = true ∧
  (∀ n : Nat, 2 < n → n % 2 = 0 → isPrime n = false) ∧
  (∀ n : Nat, n % 2 = 1 → isPrime n = isPrimeCore n)

/-- H2PY's first candidate: a value below 2^256 is its own, and a longer one gives its 32 leading bytes, where the
minimum length of a value above 0 is the least number of bytes that holds it (spec/42_hash_to_prime.md R156,
spec/00_scope.md R9). -/
def Obligations.FirstCandidateIsTheLeadingBytes : Prop :=
  (∀ v : Nat, v < 2 ^ 256 → prefixCandidate v = v) ∧
  (∀ v : Nat, 2 ^ 256 ≤ v → prefixCandidate v = v / 256 ^ (minBytes v - 32)) ∧
  (∀ v : Nat, 0 < v → 256 ^ (minBytes v - 1) ≤ v ∧ v < 256 ^ minBytes v)
end

