-- ==== Sys2Proof/Laws/State.lean ====
section
/-! SUPPORT. One lemma for each field of each update of State, all true by unfolding, so that no later proof unfolds a
record update. -/

namespace Sys2Proof.Machine

variable (s : State)

@[simp] theorem State.complete_w (e : ErrCode) : (s.complete e).w = s.w := rfl
@[simp] theorem State.complete_t (e : ErrCode) : (s.complete e).t = s.t := rfl
@[simp] theorem State.complete_l (e : ErrCode) : (s.complete e).l = s.l := rfl
@[simp] theorem State.complete_rem (e : ErrCode) : (s.complete e).rem = s.rem := rfl
@[simp] theorem State.complete_seed (e : ErrCode) : (s.complete e).seed = s.seed := rfl
@[simp] theorem State.complete_iter (e : ErrCode) : (s.complete e).iter = s.iter := rfl
@[simp] theorem State.complete_ie (e : ErrCode) : (s.complete e).ie = s.ie := rfl
@[simp] theorem State.complete_pie (e : ErrCode) : (s.complete e).pie = s.pie := rfl
@[simp] theorem State.complete_done (e : ErrCode) : (s.complete e).done = true := rfl
@[simp] theorem State.complete_prog (e : ErrCode) : (s.complete e).prog = s.prog := rfl
@[simp] theorem State.complete_prime (e : ErrCode) : (s.complete e).prime = s.prime := rfl
@[simp] theorem State.complete_err (e : ErrCode) : (s.complete e).err = e := rfl
@[simp] theorem State.complete_cmd (e : ErrCode) : (s.complete e).cmd = s.cmd := rfl
@[simp] theorem State.complete_progInterval (e : ErrCode) : (s.complete e).progInterval = s.progInterval := rfl
@[simp] theorem State.complete_phase (e : ErrCode) : (s.complete e).phase = .idle := rfl
@[simp] theorem State.complete_op (e : ErrCode) : (s.complete e).op = s.op := rfl
@[simp] theorem State.complete_snap (e : ErrCode) : (s.complete e).snap = s.snap := rfl
@[simp] theorem State.complete_loop (e : ErrCode) : (s.complete e).loop = s.loop := rfl
@[simp] theorem State.complete_doneLoop (e : ErrCode) : (s.complete e).doneLoop = s.doneLoop := rfl
@[simp] theorem State.complete_abortPending (e : ErrCode) : (s.complete e).abortPending = false := rfl
@[simp] theorem State.complete_rst (e : ErrCode) : (s.complete e).rst = s.rst := rfl
@[simp] theorem State.complete_sched (e : ErrCode) : (s.complete e).sched = s.sched := rfl
@[simp] theorem State.complete_resp (e : ErrCode) : (s.complete e).resp = s.resp := rfl

@[simp] theorem State.latchCommand_w (c : Word) : (s.latchCommand c).w = s.w := rfl
@[simp] theorem State.latchCommand_t (c : Word) : (s.latchCommand c).t = s.t := rfl
@[simp] theorem State.latchCommand_l (c : Word) : (s.latchCommand c).l = s.l := rfl
@[simp] theorem State.latchCommand_rem (c : Word) : (s.latchCommand c).rem = s.rem := rfl
@[simp] theorem State.latchCommand_seed (c : Word) : (s.latchCommand c).seed = s.seed := rfl
@[simp] theorem State.latchCommand_iter (c : Word) : (s.latchCommand c).iter = 0#64 := rfl
@[simp] theorem State.latchCommand_ie (c : Word) : (s.latchCommand c).ie = s.ie := rfl
@[simp] theorem State.latchCommand_pie (c : Word) : (s.latchCommand c).pie = s.pie := rfl
@[simp] theorem State.latchCommand_done (c : Word) : (s.latchCommand c).done = false := rfl
@[simp] theorem State.latchCommand_prog (c : Word) : (s.latchCommand c).prog = s.prog := rfl
@[simp] theorem State.latchCommand_prime (c : Word) : (s.latchCommand c).prime = s.prime := rfl
@[simp] theorem State.latchCommand_err (c : Word) : (s.latchCommand c).err = .ok := rfl
@[simp] theorem State.latchCommand_cmd (c : Word) : (s.latchCommand c).cmd = c := rfl
@[simp] theorem State.latchCommand_progInterval (c : Word) : (s.latchCommand c).progInterval = s.progInterval := rfl
@[simp] theorem State.latchCommand_phase (c : Word) : (s.latchCommand c).phase = s.phase := rfl
@[simp] theorem State.latchCommand_op (c : Word) : (s.latchCommand c).op = s.op := rfl
@[simp] theorem State.latchCommand_snap (c : Word) : (s.latchCommand c).snap = s.snap := rfl
@[simp] theorem State.latchCommand_loop (c : Word) : (s.latchCommand c).loop = s.loop := rfl
@[simp] theorem State.latchCommand_doneLoop (c : Word) : (s.latchCommand c).doneLoop = s.doneLoop := rfl
@[simp] theorem State.latchCommand_abortPending (c : Word) : (s.latchCommand c).abortPending = false := rfl
@[simp] theorem State.latchCommand_rst (c : Word) : (s.latchCommand c).rst = s.rst := rfl
@[simp] theorem State.latchCommand_sched (c : Word) : (s.latchCommand c).sched = s.sched := rfl
@[simp] theorem State.latchCommand_resp (c : Word) : (s.latchCommand c).resp = s.resp := rfl

@[simp] theorem State.start_w (i : Instr) (k : Command) : (s.start i k).w = s.w := rfl
@[simp] theorem State.start_t (i : Instr) (k : Command) : (s.start i k).t = s.t := rfl
@[simp] theorem State.start_l (i : Instr) (k : Command) : (s.start i k).l = s.l := rfl
@[simp] theorem State.start_rem (i : Instr) (k : Command) : (s.start i k).rem = s.rem := rfl
@[simp] theorem State.start_seed (i : Instr) (k : Command) : (s.start i k).seed = s.seed := rfl
@[simp] theorem State.start_iter (i : Instr) (k : Command) : (s.start i k).iter = s.iter := rfl
@[simp] theorem State.start_ie (i : Instr) (k : Command) : (s.start i k).ie = s.ie := rfl
@[simp] theorem State.start_pie (i : Instr) (k : Command) : (s.start i k).pie = s.pie := rfl
@[simp] theorem State.start_done (i : Instr) (k : Command) : (s.start i k).done = s.done := rfl
@[simp] theorem State.start_prog (i : Instr) (k : Command) : (s.start i k).prog = s.prog := rfl
@[simp] theorem State.start_prime (i : Instr) (k : Command) : (s.start i k).prime = s.prime := rfl
@[simp] theorem State.start_err (i : Instr) (k : Command) : (s.start i k).err = s.err := rfl
@[simp] theorem State.start_cmd (i : Instr) (k : Command) : (s.start i k).cmd = s.cmd := rfl
@[simp] theorem State.start_progInterval (i : Instr) (k : Command) : (s.start i k).progInterval = s.progInterval := rfl
@[simp] theorem State.start_phase (i : Instr) (k : Command) : (s.start i k).phase = .run := rfl
@[simp] theorem State.start_op (i : Instr) (k : Command) : (s.start i k).op = i := rfl
@[simp] theorem State.start_snap (i : Instr) (k : Command) : (s.start i k).snap = k.snap s := rfl
@[simp] theorem State.start_loop (i : Instr) (k : Command) : (s.start i k).loop = k.init (k.snap s) := rfl
@[simp] theorem State.start_doneLoop (i : Instr) (k : Command) : (s.start i k).doneLoop = k.done (k.snap s) (k.init (k.snap s)) := rfl
@[simp] theorem State.start_abortPending (i : Instr) (k : Command) : (s.start i k).abortPending = s.abortPending := rfl
@[simp] theorem State.start_rst (i : Instr) (k : Command) : (s.start i k).rst = s.rst := rfl
@[simp] theorem State.start_sched (i : Instr) (k : Command) : (s.start i k).sched = s.sched := rfl
@[simp] theorem State.start_resp (i : Instr) (k : Command) : (s.start i k).resp = s.resp := rfl

@[simp] theorem State.tick_w : (s.tick).w = s.w := rfl
@[simp] theorem State.tick_t : (s.tick).t = s.t := rfl
@[simp] theorem State.tick_l : (s.tick).l = s.l := rfl
@[simp] theorem State.tick_rem : (s.tick).rem = s.rem := rfl
@[simp] theorem State.tick_seed : (s.tick).seed = s.seed := rfl
@[simp] theorem State.tick_iter : (s.tick).iter = s.iter + 1#64 := rfl
@[simp] theorem State.tick_ie : (s.tick).ie = s.ie := rfl
@[simp] theorem State.tick_pie : (s.tick).pie = s.pie := rfl
@[simp] theorem State.tick_done : (s.tick).done = s.done := rfl
@[simp] theorem State.tick_prog : (s.tick).prog = (s.prog || progressDue s.progInterval (s.iter + 1#64)) := rfl
@[simp] theorem State.tick_prime : (s.tick).prime = s.prime := rfl
@[simp] theorem State.tick_err : (s.tick).err = s.err := rfl
@[simp] theorem State.tick_cmd : (s.tick).cmd = s.cmd := rfl
@[simp] theorem State.tick_progInterval : (s.tick).progInterval = s.progInterval := rfl
@[simp] theorem State.tick_phase : (s.tick).phase = s.phase := rfl
@[simp] theorem State.tick_op : (s.tick).op = s.op := rfl
@[simp] theorem State.tick_snap : (s.tick).snap = s.snap := rfl
@[simp] theorem State.tick_loop : (s.tick).loop = s.loop := rfl
@[simp] theorem State.tick_doneLoop : (s.tick).doneLoop = s.doneLoop := rfl
@[simp] theorem State.tick_abortPending : (s.tick).abortPending = s.abortPending := rfl
@[simp] theorem State.tick_rst : (s.tick).rst = s.rst := rfl
@[simp] theorem State.tick_sched : (s.tick).sched = s.sched := rfl
@[simp] theorem State.tick_resp : (s.tick).resp = s.resp := rfl

@[simp] theorem State.writeCtrl_w (b : Byte) : (s.writeCtrl b).w = s.w := rfl
@[simp] theorem State.writeCtrl_t (b : Byte) : (s.writeCtrl b).t = s.t := rfl
@[simp] theorem State.writeCtrl_l (b : Byte) : (s.writeCtrl b).l = s.l := rfl
@[simp] theorem State.writeCtrl_rem (b : Byte) : (s.writeCtrl b).rem = s.rem := rfl
@[simp] theorem State.writeCtrl_seed (b : Byte) : (s.writeCtrl b).seed = s.seed := rfl
@[simp] theorem State.writeCtrl_iter (b : Byte) : (s.writeCtrl b).iter = s.iter := rfl
@[simp] theorem State.writeCtrl_ie (b : Byte) : (s.writeCtrl b).ie = b.getLsbD 0 := rfl
@[simp] theorem State.writeCtrl_pie (b : Byte) : (s.writeCtrl b).pie = b.getLsbD 1 := rfl
@[simp] theorem State.writeCtrl_done (b : Byte) : (s.writeCtrl b).done = s.done := rfl
@[simp] theorem State.writeCtrl_prog (b : Byte) : (s.writeCtrl b).prog = s.prog := rfl
@[simp] theorem State.writeCtrl_prime (b : Byte) : (s.writeCtrl b).prime = s.prime := rfl
@[simp] theorem State.writeCtrl_err (b : Byte) : (s.writeCtrl b).err = s.err := rfl
@[simp] theorem State.writeCtrl_cmd (b : Byte) : (s.writeCtrl b).cmd = s.cmd := rfl
@[simp] theorem State.writeCtrl_progInterval (b : Byte) : (s.writeCtrl b).progInterval = s.progInterval := rfl
@[simp] theorem State.writeCtrl_phase (b : Byte) : (s.writeCtrl b).phase = s.phase := rfl
@[simp] theorem State.writeCtrl_op (b : Byte) : (s.writeCtrl b).op = s.op := rfl
@[simp] theorem State.writeCtrl_snap (b : Byte) : (s.writeCtrl b).snap = s.snap := rfl
@[simp] theorem State.writeCtrl_loop (b : Byte) : (s.writeCtrl b).loop = s.loop := rfl
@[simp] theorem State.writeCtrl_doneLoop (b : Byte) : (s.writeCtrl b).doneLoop = s.doneLoop := rfl
@[simp] theorem State.writeCtrl_abortPending (b : Byte) : (s.writeCtrl b).abortPending = (s.abortPending || (b.getLsbD 2 && s.busy)) := rfl
@[simp] theorem State.writeCtrl_rst (b : Byte) : (s.writeCtrl b).rst = s.rst := rfl
@[simp] theorem State.writeCtrl_sched (b : Byte) : (s.writeCtrl b).sched = s.sched := rfl
@[simp] theorem State.writeCtrl_resp (b : Byte) : (s.writeCtrl b).resp = s.resp := rfl

@[simp] theorem State.writeStatus_w (b : Byte) : (s.writeStatus b).w = s.w := rfl
@[simp] theorem State.writeStatus_t (b : Byte) : (s.writeStatus b).t = s.t := rfl
@[simp] theorem State.writeStatus_l (b : Byte) : (s.writeStatus b).l = s.l := rfl
@[simp] theorem State.writeStatus_rem (b : Byte) : (s.writeStatus b).rem = s.rem := rfl
@[simp] theorem State.writeStatus_seed (b : Byte) : (s.writeStatus b).seed = s.seed := rfl
@[simp] theorem State.writeStatus_iter (b : Byte) : (s.writeStatus b).iter = s.iter := rfl
@[simp] theorem State.writeStatus_ie (b : Byte) : (s.writeStatus b).ie = s.ie := rfl
@[simp] theorem State.writeStatus_pie (b : Byte) : (s.writeStatus b).pie = s.pie := rfl
@[simp] theorem State.writeStatus_done (b : Byte) : (s.writeStatus b).done = (s.done && !b.getLsbD 1) := rfl
@[simp] theorem State.writeStatus_prog (b : Byte) : (s.writeStatus b).prog = (s.prog && !b.getLsbD 2) := rfl
@[simp] theorem State.writeStatus_prime (b : Byte) : (s.writeStatus b).prime = s.prime := rfl
@[simp] theorem State.writeStatus_err (b : Byte) : (s.writeStatus b).err = s.err := rfl
@[simp] theorem State.writeStatus_cmd (b : Byte) : (s.writeStatus b).cmd = s.cmd := rfl
@[simp] theorem State.writeStatus_progInterval (b : Byte) : (s.writeStatus b).progInterval = s.progInterval := rfl
@[simp] theorem State.writeStatus_phase (b : Byte) : (s.writeStatus b).phase = s.phase := rfl
@[simp] theorem State.writeStatus_op (b : Byte) : (s.writeStatus b).op = s.op := rfl
@[simp] theorem State.writeStatus_snap (b : Byte) : (s.writeStatus b).snap = s.snap := rfl
@[simp] theorem State.writeStatus_loop (b : Byte) : (s.writeStatus b).loop = s.loop := rfl
@[simp] theorem State.writeStatus_doneLoop (b : Byte) : (s.writeStatus b).doneLoop = s.doneLoop := rfl
@[simp] theorem State.writeStatus_abortPending (b : Byte) : (s.writeStatus b).abortPending = s.abortPending := rfl
@[simp] theorem State.writeStatus_rst (b : Byte) : (s.writeStatus b).rst = s.rst := rfl
@[simp] theorem State.writeStatus_sched (b : Byte) : (s.writeStatus b).sched = s.sched := rfl
@[simp] theorem State.writeStatus_resp (b : Byte) : (s.writeStatus b).resp = s.resp := rfl

@[simp] theorem State.setW_w (r : WReg) (v : Nat) : (s.setW r v).w = s.w.set r (BitVec.ofNat 2048 v) := rfl
@[simp] theorem State.setW_t (r : WReg) (v : Nat) : (s.setW r v).t = s.t := rfl
@[simp] theorem State.setW_l (r : WReg) (v : Nat) : (s.setW r v).l = s.l := rfl
@[simp] theorem State.setW_rem (r : WReg) (v : Nat) : (s.setW r v).rem = s.rem := rfl
@[simp] theorem State.setW_seed (r : WReg) (v : Nat) : (s.setW r v).seed = s.seed := rfl
@[simp] theorem State.setW_iter (r : WReg) (v : Nat) : (s.setW r v).iter = s.iter := rfl
@[simp] theorem State.setW_ie (r : WReg) (v : Nat) : (s.setW r v).ie = s.ie := rfl
@[simp] theorem State.setW_pie (r : WReg) (v : Nat) : (s.setW r v).pie = s.pie := rfl
@[simp] theorem State.setW_done (r : WReg) (v : Nat) : (s.setW r v).done = s.done := rfl
@[simp] theorem State.setW_prog (r : WReg) (v : Nat) : (s.setW r v).prog = s.prog := rfl
@[simp] theorem State.setW_prime (r : WReg) (v : Nat) : (s.setW r v).prime = s.prime := rfl
@[simp] theorem State.setW_err (r : WReg) (v : Nat) : (s.setW r v).err = s.err := rfl
@[simp] theorem State.setW_cmd (r : WReg) (v : Nat) : (s.setW r v).cmd = s.cmd := rfl
@[simp] theorem State.setW_progInterval (r : WReg) (v : Nat) : (s.setW r v).progInterval = s.progInterval := rfl
@[simp] theorem State.setW_phase (r : WReg) (v : Nat) : (s.setW r v).phase = s.phase := rfl
@[simp] theorem State.setW_op (r : WReg) (v : Nat) : (s.setW r v).op = s.op := rfl
@[simp] theorem State.setW_snap (r : WReg) (v : Nat) : (s.setW r v).snap = s.snap := rfl
@[simp] theorem State.setW_loop (r : WReg) (v : Nat) : (s.setW r v).loop = s.loop := rfl
@[simp] theorem State.setW_doneLoop (r : WReg) (v : Nat) : (s.setW r v).doneLoop = s.doneLoop := rfl
@[simp] theorem State.setW_abortPending (r : WReg) (v : Nat) : (s.setW r v).abortPending = s.abortPending := rfl
@[simp] theorem State.setW_rst (r : WReg) (v : Nat) : (s.setW r v).rst = s.rst := rfl
@[simp] theorem State.setW_sched (r : WReg) (v : Nat) : (s.setW r v).sched = s.sched := rfl
@[simp] theorem State.setW_resp (r : WReg) (v : Nat) : (s.setW r v).resp = s.resp := rfl

@[simp] theorem State.hideSequencer_w : (s.hideSequencer).w = s.w := rfl
@[simp] theorem State.hideSequencer_t : (s.hideSequencer).t = s.t := rfl
@[simp] theorem State.hideSequencer_l : (s.hideSequencer).l = s.l := rfl
@[simp] theorem State.hideSequencer_rem : (s.hideSequencer).rem = s.rem := rfl
@[simp] theorem State.hideSequencer_seed : (s.hideSequencer).seed = s.seed := rfl
@[simp] theorem State.hideSequencer_iter : (s.hideSequencer).iter = s.iter := rfl
@[simp] theorem State.hideSequencer_ie : (s.hideSequencer).ie = s.ie := rfl
@[simp] theorem State.hideSequencer_pie : (s.hideSequencer).pie = s.pie := rfl
@[simp] theorem State.hideSequencer_done : (s.hideSequencer).done = s.done := rfl
@[simp] theorem State.hideSequencer_prog : (s.hideSequencer).prog = s.prog := rfl
@[simp] theorem State.hideSequencer_prime : (s.hideSequencer).prime = s.prime := rfl
@[simp] theorem State.hideSequencer_err : (s.hideSequencer).err = s.err := rfl
@[simp] theorem State.hideSequencer_cmd : (s.hideSequencer).cmd = s.cmd := rfl
@[simp] theorem State.hideSequencer_progInterval : (s.hideSequencer).progInterval = s.progInterval := rfl
@[simp] theorem State.hideSequencer_phase : (s.hideSequencer).phase = s.phase := rfl
@[simp] theorem State.hideSequencer_op : (s.hideSequencer).op = .sqrmod 0 0 := rfl
@[simp] theorem State.hideSequencer_snap : (s.hideSequencer).snap = Snap.empty := rfl
@[simp] theorem State.hideSequencer_loop : (s.hideSequencer).loop = Loop.empty := rfl
@[simp] theorem State.hideSequencer_doneLoop : (s.hideSequencer).doneLoop = false := rfl
@[simp] theorem State.hideSequencer_abortPending : (s.hideSequencer).abortPending = s.abortPending := rfl
@[simp] theorem State.hideSequencer_rst : (s.hideSequencer).rst = s.rst := rfl
@[simp] theorem State.hideSequencer_sched : (s.hideSequencer).sched = s.sched := rfl
@[simp] theorem State.hideSequencer_resp : (s.hideSequencer).resp = s.resp := rfl

@[simp] theorem State.withSched_w (rest : List Action) : (s.withSched rest).w = s.w := rfl
@[simp] theorem State.withSched_t (rest : List Action) : (s.withSched rest).t = s.t := rfl
@[simp] theorem State.withSched_l (rest : List Action) : (s.withSched rest).l = s.l := rfl
@[simp] theorem State.withSched_rem (rest : List Action) : (s.withSched rest).rem = s.rem := rfl
@[simp] theorem State.withSched_seed (rest : List Action) : (s.withSched rest).seed = s.seed := rfl
@[simp] theorem State.withSched_iter (rest : List Action) : (s.withSched rest).iter = s.iter := rfl
@[simp] theorem State.withSched_ie (rest : List Action) : (s.withSched rest).ie = s.ie := rfl
@[simp] theorem State.withSched_pie (rest : List Action) : (s.withSched rest).pie = s.pie := rfl
@[simp] theorem State.withSched_done (rest : List Action) : (s.withSched rest).done = s.done := rfl
@[simp] theorem State.withSched_prog (rest : List Action) : (s.withSched rest).prog = s.prog := rfl
@[simp] theorem State.withSched_prime (rest : List Action) : (s.withSched rest).prime = s.prime := rfl
@[simp] theorem State.withSched_err (rest : List Action) : (s.withSched rest).err = s.err := rfl
@[simp] theorem State.withSched_cmd (rest : List Action) : (s.withSched rest).cmd = s.cmd := rfl
@[simp] theorem State.withSched_progInterval (rest : List Action) : (s.withSched rest).progInterval = s.progInterval := rfl
@[simp] theorem State.withSched_phase (rest : List Action) : (s.withSched rest).phase = s.phase := rfl
@[simp] theorem State.withSched_op (rest : List Action) : (s.withSched rest).op = s.op := rfl
@[simp] theorem State.withSched_snap (rest : List Action) : (s.withSched rest).snap = s.snap := rfl
@[simp] theorem State.withSched_loop (rest : List Action) : (s.withSched rest).loop = s.loop := rfl
@[simp] theorem State.withSched_doneLoop (rest : List Action) : (s.withSched rest).doneLoop = s.doneLoop := rfl
@[simp] theorem State.withSched_abortPending (rest : List Action) : (s.withSched rest).abortPending = s.abortPending := rfl
@[simp] theorem State.withSched_rst (rest : List Action) : (s.withSched rest).rst = s.rst := rfl
@[simp] theorem State.withSched_sched (rest : List Action) : (s.withSched rest).sched = rest := rfl
@[simp] theorem State.withSched_resp (rest : List Action) : (s.withSched rest).resp = s.resp := rfl

@[simp] theorem State.answer_w (r : Response) : (s.answer r).w = s.w := rfl
@[simp] theorem State.answer_t (r : Response) : (s.answer r).t = s.t := rfl
@[simp] theorem State.answer_l (r : Response) : (s.answer r).l = s.l := rfl
@[simp] theorem State.answer_rem (r : Response) : (s.answer r).rem = s.rem := rfl
@[simp] theorem State.answer_seed (r : Response) : (s.answer r).seed = s.seed := rfl
@[simp] theorem State.answer_iter (r : Response) : (s.answer r).iter = s.iter := rfl
@[simp] theorem State.answer_ie (r : Response) : (s.answer r).ie = s.ie := rfl
@[simp] theorem State.answer_pie (r : Response) : (s.answer r).pie = s.pie := rfl
@[simp] theorem State.answer_done (r : Response) : (s.answer r).done = s.done := rfl
@[simp] theorem State.answer_prog (r : Response) : (s.answer r).prog = s.prog := rfl
@[simp] theorem State.answer_prime (r : Response) : (s.answer r).prime = s.prime := rfl
@[simp] theorem State.answer_err (r : Response) : (s.answer r).err = s.err := rfl
@[simp] theorem State.answer_cmd (r : Response) : (s.answer r).cmd = s.cmd := rfl
@[simp] theorem State.answer_progInterval (r : Response) : (s.answer r).progInterval = s.progInterval := rfl
@[simp] theorem State.answer_phase (r : Response) : (s.answer r).phase = s.phase := rfl
@[simp] theorem State.answer_op (r : Response) : (s.answer r).op = s.op := rfl
@[simp] theorem State.answer_snap (r : Response) : (s.answer r).snap = s.snap := rfl
@[simp] theorem State.answer_loop (r : Response) : (s.answer r).loop = s.loop := rfl
@[simp] theorem State.answer_doneLoop (r : Response) : (s.answer r).doneLoop = s.doneLoop := rfl
@[simp] theorem State.answer_abortPending (r : Response) : (s.answer r).abortPending = s.abortPending := rfl
@[simp] theorem State.answer_rst (r : Response) : (s.answer r).rst = s.rst := rfl
@[simp] theorem State.answer_sched (r : Response) : (s.answer r).sched = s.sched := rfl
@[simp] theorem State.answer_resp (r : Response) : (s.answer r).resp = r := rfl

/-! Reading a working register through an update that leaves them. -/

@[simp] theorem State.complete_wreg (e : ErrCode) (q : WReg) : (s.complete e).wreg q = s.wreg q := rfl
@[simp] theorem State.latchCommand_wreg (c : Word) (q : WReg) : (s.latchCommand c).wreg q = s.wreg q := rfl
@[simp] theorem State.start_wreg (i : Instr) (k : Command) (q : WReg) : (s.start i k).wreg q = s.wreg q := rfl
@[simp] theorem State.tick_wreg (q : WReg) : (s.tick).wreg q = s.wreg q := rfl
@[simp] theorem State.writeCtrl_wreg (b : Byte) (q : WReg) : (s.writeCtrl b).wreg q = s.wreg q := rfl
@[simp] theorem State.writeStatus_wreg (b : Byte) (q : WReg) : (s.writeStatus b).wreg q = s.wreg q := rfl
@[simp] theorem State.withSched_wreg (rest : List Action) (q : WReg) : (s.withSched rest).wreg q = s.wreg q := rfl
@[simp] theorem State.answer_wreg (r : Response) (q : WReg) : (s.answer r).wreg q = s.wreg q := rfl
@[simp] theorem State.hideSequencer_wreg (q : WReg) : (s.hideSequencer).wreg q = s.wreg q := rfl

theorem State.setW_wreg_same (r : WReg) (v : Nat) : (s.setW r v).wreg r = BitVec.ofNat 2048 v := by
  simp [State.wreg, State.setW]

theorem State.setW_wreg_other (r q : WReg) (v : Nat) (h : q ≠ r) : (s.setW r v).wreg q = s.wreg q := by
  have : r.val ≠ q.val := fun e => h (Fin.ext e.symm)
  simp [State.wreg, State.setW, Vector.getElem_set_ne, this]

end Sys2Proof.Machine
end

