-- ==== Sys2Proof/Laws/Ops.lean ====
section
/-! SUPPORT. What the shared operations can do, said once each: the sequencer's step, the accept, the port and the
moves of the agents. Proofs about a step cite these instead of unfolding. -/

namespace Sys2Proof.Machine

open Host (Outcome)

/-- Every meaning is the next atomic step of its command's parts. -/
theorem exec_eq_runCommand (i : Instr) (s : State) : exec i s = runCommand i (commandOf i) s := by
  cases i <;> rfl

theorem exec_idle {i : Instr} {s : State} (h : s.phase = .idle) : exec i s = .next (s.accept i (commandOf i)) := by
  simp only [exec_eq_runCommand, runCommand, h]

theorem exec_run {i : Instr} {s : State} (h : s.phase = .run) : exec i s = .next (s.advance (commandOf i)) := by
  simp only [exec_eq_runCommand, runCommand, h]

/-- No meaning stops: every command answers a next state from every state. -/
theorem exec_next (i : Instr) (s : State) : ∃ t, exec i s = .next t := by
  cases h : s.phase
  · exact ⟨_, exec_idle h⟩
  · exact ⟨_, exec_run h⟩

/-- What a command's next atomic step can be: an accept that starts it, an accept that fails its checks, a
cancellation, a commit, or an iteration. -/
theorem exec_cases {i : Instr} {s t : State} (h : exec i s = .next t) :
    (s.phase = .idle ∧ (commandOf i).check (s.latchCommand (encode i)) = .ok ∧
      t = (s.latchCommand (encode i)).start i (commandOf i)) ∨
    (s.phase = .idle ∧ ∃ e, e ≠ .ok ∧ (commandOf i).check (s.latchCommand (encode i)) = e ∧
      t = (s.latchCommand (encode i)).complete e) ∨
    (s.phase = .run ∧ s.abortPending = true ∧ t = s.complete .ecancel) ∨
    (s.phase = .run ∧ s.abortPending = false ∧ s.doneLoop = true ∧ t = s.commitStep (commandOf i)) ∨
    (s.phase = .run ∧ s.abortPending = false ∧ s.doneLoop = false ∧ t = s.iterateStep (commandOf i)) := by
  cases hp : s.phase
  · rw [exec_idle hp] at h
    injection h with h
    subst h
    unfold State.accept
    by_cases hc : (commandOf i).check (s.latchCommand (encode i)) = .ok <;> simp [hc]
  · rw [exec_run hp] at h
    injection h with h
    subst h
    unfold State.advance
    cases s.abortPending <;> cases s.doneLoop <;> simp

theorem execSteps_succ {i : Instr} {k : Nat} {s t : State} (h : exec i s = .next t) :
    execSteps i (k + 1) s = execSteps i k t := by
  simp only [execSteps, h]

theorem execSteps_add (i : Instr) (k m : Nat) {s t : State} (h : execSteps i k s = .next t) :
    execSteps i (k + m) s = execSteps i m t := by
  induction k generalizing s with
  | zero => cases h; simp
  | succ k ih =>
    obtain ⟨u, hu⟩ := exec_next i s
    rw [execSteps_succ hu] at h
    rw [Nat.add_right_comm, execSteps_succ hu, ih h]

/-- One step of a run. -/
theorem run_succ {k : Nat} {s t : State} (h : step s = .next t) :
    Sys2Proof.core.run (k + 1) s = Sys2Proof.core.run k t := by
  have h' : Sys2Proof.core.step s = .next t := h
  simp only [Host.Core.run, h']

/-- The checks at accept are those of the table of spec/60_exceptions.md R202. -/
theorem firstFailure_pair (a b : ErrCode) : firstFailure [a, b] = if a = .ok then b else a := by
  cases a <;> cases b <;> rfl

theorem firstFailure_triple (a b c : ErrCode) :
    firstFailure [a, b, c] = if a = .ok then (if b = .ok then c else b) else a := by
  cases a <;> cases b <;> cases c <;> rfl

/-- What a host write can do: ERROR, a command issued, or bytes stored. -/
theorem hostWrite_cases {a : Offset} {n : Nat} {v : Word} {s t : State} (h : hostWrite a n v s = .next t) :
    (s.writeTarget a n = none ∧ t = s.answer (.write .error)) ∨
    (∃ k, s.writeTarget a n = some (.cmd, k) ∧ issueCommand v (s.answer (.write .okay)) = .next t) ∨
    (∃ r k, r ≠ .cmd ∧ s.writeTarget a n = some (r, k) ∧
      t = (s.answer (.write .okay)).storeBytes r k (dataBytes n v)) := by
  unfold hostWrite at h
  split at h
  · injection h with h
    exact .inl ⟨‹_›, h.symm⟩
  · exact .inr (.inl ⟨_, ‹_›, h⟩)
  · rename_i r k hne hw
    injection h with h
    exact .inr (.inr ⟨r, k, fun e => hne e, hw, h.symm⟩)

/-- What issuing a word can do. -/
theorem issueCommand_cases {c : Word} {s t : State} (h : issueCommand c s = .next t) :
    (∃ i, decode c = .ok i ∧ exec i s = .next t) ∨
    (∃ why, decode c = .illegal why ∧ t = (s.latchCommand c).complete .eill) := by
  unfold issueCommand at h
  split at h
  · exact .inl ⟨_, ‹_›, h⟩
  · injection h with h
    exact .inr ⟨_, ‹_›, h.symm⟩

/-- A write lands only where spec/20_memory.md R63's checks let it: the access is legal, the offset is in the
register's window, and while a command runs the register is CTRL or STATUS. -/
theorem writeTarget_some {s : State} {a : Offset} {n : Nat} {r : PortReg} {k : Nat}
    (h : s.writeTarget a n = some (r, k)) :
    legalAccess a n = true ∧ locate a = some (r, k) ∧ (r = .cmd → n = 4) ∧ r.readOnly = false ∧
      (s.phase = .run → r.alwaysWritable = true) := by
  unfold State.writeTarget at h
  split at h
  · rename_i hl
    split at h
    · cases h
    · rename_i r' k' hloc
      split at h
      · cases h
      · split at h
        · cases h
        · split at h
          · cases h
          · rename_i h1 h2 h3
            injection h with h
            injection h with hr hk
            subst hr hk
            refine ⟨hl, hloc, fun e => ?_, by simpa using h2, fun hp => ?_⟩
            · by_contra hn
              exact h1 ⟨e, hn⟩
            · by_contra hw
              exact h3 ⟨by simp [State.busy, hp], hw⟩
  · cases h

/-- A register's value from its window touches no register but the five data registers. -/
theorem setPort_frame (s : State) (r : PortReg) (v : Nat) :
    ∃ w t l sd pi, s.setPort r v = { s with w := w, t := t, l := l, seed := sd, progInterval := pi } := by
  cases r <;> exact ⟨_, _, _, _, _, rfl⟩

/-- Everything that bytes stored by a host write can change: the data registers, CTRL and STATUS fields, and the abort
request. -/
theorem storeBytes_frame (s : State) (r : PortReg) (k : Nat) (bs : List Byte) :
    ∃ w t l sd pi ie pie done prog ab, s.storeBytes r k bs =
      { s with w := w, t := t, l := l, seed := sd, progInterval := pi, ie := ie, pie := pie, done := done,
               prog := prog, abortPending := ab } := by
  unfold State.storeBytes
  split
  · split <;> exact ⟨_, _, _, _, _, _, _, _, _, _, rfl⟩
  · split <;> exact ⟨_, _, _, _, _, _, _, _, _, _, rfl⟩
  · obtain ⟨w, t, l, sd, pi, h⟩ := setPort_frame s r (bytesToInt (splice (s.image r) k bs))
    exact ⟨w, t, l, sd, pi, s.ie, s.pie, s.done, s.prog, s.abortPending, h⟩

/-- A read answers and changes nothing else. -/
theorem hostRead_frame (s : State) (a : Offset) (n : Nat) :
    ∃ resp data, s.hostRead a n = s.answer (.read resp data) := by
  unfold State.hostRead
  split
  · split <;> exact ⟨_, _, rfl⟩
  · exact ⟨_, _, rfl⟩

/-! What a move is, for each value of the reset line. -/

theorem act_read {s : State} (h : s.rst = .released) (a : Offset) (n : Nat) :
    act (.read a n) s = .next (s.hostRead a n) := by
  simp only [act, h]

theorem act_write {s : State} (h : s.rst = .released) (a : Offset) (n : Nat) (v : Word) :
    act (.write a n v) s = hostWrite a n v s := by
  simp only [act, h]

theorem act_sequencer_run {s : State} (h : s.rst = .released) (hp : s.phase = .run) :
    act .sequencer s = exec s.op s := by
  simp only [act, h, sequencerMove, hp]

theorem act_sequencer_idle {s : State} (hp : s.phase = .idle) : act .sequencer s = .next s := by
  cases h : s.rst <;> simp only [act, h, sequencerMove, hp]

theorem act_sequencer_held {s : State} (h : s.rst ≠ .released) : act .sequencer s = .next s := by
  cases hr : s.rst
  · simp only [act, hr]
  · simp only [act, hr]
  · exact absurd hr h

theorem act_host_held {s : State} (h : s.rst = .held) :
    (∀ a n, act (.read a n) s = .next (s.answer .none)) ∧
      ∀ a n v, act (.write a n v) s = .next (s.answer .none) := by
  refine ⟨fun a n => ?_, fun a n v => ?_⟩ <;> simp only [act, h]

/-- With nothing scheduled a step is the sequencer's move; otherwise it is the first scheduled move. -/
theorem step_nil {s : State} (h : s.sched = []) : step s = act .sequencer s := by
  simp only [step, nextMove, h]

theorem step_cons {s : State} {m : Action} {rest : List Action} (h : s.sched = m :: rest) :
    step s = act m (s.withSched rest) := by
  simp only [step, nextMove, h]

end Sys2Proof.Machine
end

