-- ==== Sys2Proof/Laws/PerInstr.lean ====
section
/-! SUPPORT. A family of statements about the nine commands as syntax: the word of each is legal by the field check of
spec/30_encoding.md R92 and R95, which is written apart from the decoder's table. -/

namespace Sys2Proof.Laws.EncodesLegally

/-- The fields of the command's word pass every check of spec/30_encoding.md R95. -/
def Statement (i : Instr) : Prop := (Fields.ofWord (encode i)).wellFormed = true

theorem sqrmod (rd rs1 : WReg) : Statement (.sqrmod rd rs1) := by
  revert rd rs1
  unfold Statement
  decide +kernel

theorem mulmod (rd rs1 rs2 : WReg) : Statement (.mulmod rd rs1 rs2) := by
  revert rd rs1 rs2
  unfold Statement
  decide +kernel

theorem modexp (rd rs1 rs2 : WReg) : Statement (.modexp rd rs1 rs2) := by
  revert rd rs1 rs2
  unfold Statement
  decide +kernel

theorem reduce (rd rs1 : WReg) : Statement (.reduce rd rs1) := by
  revert rd rs1
  unfold Statement
  decide +kernel

theorem eval (rd rs1 : WReg) : Statement (.eval rd rs1) := by
  revert rd rs1
  unfold Statement
  decide +kernel

theorem prove (rd rs1 : WReg) : Statement (.prove rd rs1) := by
  revert rd rs1
  unfold Statement
  decide +kernel

theorem h2py (rs1 : WReg) : Statement (.h2py rs1) := by
  revert rs1
  unfold Statement
  decide +kernel

theorem h2ps : Statement .h2ps := by
  unfold Statement
  decide +kernel

theorem ptest : Statement .ptest := by
  unfold Statement
  decide +kernel

end Sys2Proof.Laws.EncodesLegally
end

