-- ==== Sys2Proof/Tests/Slice0.lean ====
section
/-! SUPPORT. Tests: expected values come from spec/30_encoding.md's fields and from spec/95_test_vectors.md, whose
vector each docstring names; and, for every statement with hypotheses, states that meet them. -/

namespace Sys2Proof.Tests

set_option Elab.async false

open Sys2Proof Sys2Proof.Machine

/-! ## Small states -/

/-- The state after reset with W0 and W1 loaded. -/
def loaded (w0 w1 : Nat) : State := (State.reset.setW 0 w0).setW 1 w1

/-- A state whose next move is the host's write of word `c` to CMD. -/
def issuing (c : Word) (s : State) : State := { s with sched := [.write 0x00C#12 4 c] }

/-- A state whose next move is the host write of `v` in `n` bytes at `a`. -/
def writing (a : Offset) (n : Nat) (v : Word) (s : State) : State := { s with sched := [.write a n v] }

/-- A state whose next move is the host read of `n` bytes at `a`. -/
def reading (a : Offset) (n : Nat) (s : State) : State := { s with sched := [.read a n] }

/-- The state right after the accept of `i` in `s`. -/
def accepted (i : Instr) (s : State) : State := s.accept i (commandOf i)

/-- A running state with its loop finished. -/
def finished (s : State) : State := { s with phase := .run, doneLoop := true }

/-- What is read in the next state, if there is one. -/
def after {α : Type} (f : State → α) (o : Host.Outcome State Fault Refusal) : Option α :=
  match o with
  | .next t => some (f t)
  | .fault _ => none
  | .refused _ => none

/-! ## Well-formedness: one ill-formed term for each check -/

/-- Opcode 0x05 is reserved (spec/30_encoding.md R93; V-MA-18). -/
theorem test_wellFormed_refuses_reserved_opcode :
    (Fields.mk 0x05#6 0#3 0#3 0#3 0#1 0#16).defect = some .reservedOpcode := by decide

/-- A bit in 31:16 (spec/30_encoding.md R95; V-MA-18). -/
theorem test_wellFormed_refuses_upper_bits :
    (Fields.mk 0x01#6 0#3 0#3 0#3 0#1 1#16).defect = some .upperBits := by decide

/-- m = 1 with SQRMOD (spec/30_encoding.md R95; V-MA-18). -/
theorem test_wellFormed_refuses_mode_bit :
    (Fields.mk 0x01#6 0#3 0#3 0#3 1#1 0#16).defect = some .modeBit := by decide

/-- A field the class does not use, for each class that has one: R2 rs2; HY rd and rs2; HS rd, rs1 and rs2; N0 rd, rs1
and rs2 (spec/30_encoding.md R92; V-MA-18). -/
theorem test_wellFormed_refuses_unused_fields :
    [Fields.mk 0x01#6 0#3 0#3 1#3 0#1 0#16, Fields.mk 0x10#6 1#3 0#3 0#3 0#1 0#16,
     Fields.mk 0x10#6 0#3 0#3 1#3 0#1 0#16, Fields.mk 0x10#6 1#3 0#3 0#3 1#1 0#16,
     Fields.mk 0x10#6 0#3 1#3 0#3 1#1 0#16, Fields.mk 0x10#6 0#3 0#3 1#3 1#1 0#16,
     Fields.mk 0x11#6 1#3 0#3 0#3 0#1 0#16, Fields.mk 0x11#6 0#3 1#3 0#3 0#1 0#16,
     Fields.mk 0x11#6 0#3 0#3 1#3 0#1 0#16].all (fun f => f.defect == some .unusedField) = true := by decide

/-- Class R3 uses every field (spec/30_encoding.md R92). -/
theorem test_wellFormed_takes_three_operands :
    (Fields.mk 0x02#6 7#3 7#3 7#3 0#1 0#16).wellFormed = true := by decide

/-- Two bytes are no command word (spec/20_memory.md R68). -/
theorem test_decode_refuses_two_bytes : decodeBytes [0x00#8, 0x41#8] = .illegal .notOneWord := by decide

/-! ## Decoding: a word written out bit by bit for each command, fields zero | m | rs2 | rs1 | rd | opc -/

theorem test_decode_sqrmod :
    decode (0b0000000000000000#16 ++ 0b0#1 ++ 0b000#3 ++ 0b101#3 ++ 0b011#3 ++ 0b000001#6) =
      .ok (.sqrmod 3 5) := by decide

theorem test_decode_mulmod :
    decode (0b0000000000000000#16 ++ 0b0#1 ++ 0b110#3 ++ 0b100#3 ++ 0b111#3 ++ 0b000010#6) =
      .ok (.mulmod 7 4 6) := by decide

theorem test_decode_modexp :
    decode (0b0000000000000000#16 ++ 0b0#1 ++ 0b011#3 ++ 0b010#3 ++ 0b100#3 ++ 0b000011#6) =
      .ok (.modexp 4 2 3) := by decide

theorem test_decode_reduce :
    decode (0b0000000000000000#16 ++ 0b0#1 ++ 0b000#3 ++ 0b001#3 ++ 0b110#3 ++ 0b000100#6) =
      .ok (.reduce 6 1) := by decide

theorem test_decode_eval :
    decode (0b0000000000000000#16 ++ 0b0#1 ++ 0b000#3 ++ 0b111#3 ++ 0b010#3 ++ 0b001000#6) =
      .ok (.eval 2 7) := by decide

theorem test_decode_prove :
    decode (0b0000000000000000#16 ++ 0b0#1 ++ 0b000#3 ++ 0b011#3 ++ 0b101#3 ++ 0b001001#6) =
      .ok (.prove 5 3) := by decide

theorem test_decode_h2py :
    decode (0b0000000000000000#16 ++ 0b0#1 ++ 0b000#3 ++ 0b110#3 ++ 0b000#3 ++ 0b010000#6) =
      .ok (.h2py 6) := by decide

theorem test_decode_h2ps :
    decode (0b0000000000000000#16 ++ 0b1#1 ++ 0b000#3 ++ 0b000#3 ++ 0b000#3 ++ 0b010000#6) =
      .ok .h2ps := by decide

theorem test_decode_ptest :
    decode (0b0000000000000000#16 ++ 0b0#1 ++ 0b000#3 ++ 0b000#3 ++ 0b000#3 ++ 0b010001#6) =
      .ok .ptest := by decide

/-- V-MA-18: the illegal words, with the case of spec/30_encoding.md R95 each stands for. -/
theorem test_decode_illegal_words :
    [0x00000000#32, 0x00001001#32, 0x00010001#32, 0x00008001#32, 0x00000005#32, 0x0000003F#32, 0x00008210#32,
      0x00000050#32, 0x00001011#32].map decode =
    [.illegal .reservedOpcode, .illegal .unusedField, .illegal .upperBits, .illegal .modeBit,
      .illegal .reservedOpcode, .illegal .reservedOpcode, .illegal .unusedField, .illegal .unusedField,
      .illegal .unusedField] := by decide

/-- The table numbering of spec/opcode_table.json: 32 bits, and too few bits leave the upper ones 0. -/
theorem test_decodeTableWord :
    decodeTableWord 32 0x69C2 = some (.mulmod 7 4 6) ∧ decodeTableWord 8 0x41 = some (.sqrmod 1 0) ∧
      decodeTableWord 32 0x5 = none := by decide

/-! ## Constants and the codec -/

/-- The facts of spec/00_scope.md R6 about N, and its decimal form. -/
theorem test_modulus :
    2 ^ 2047 < Config.N ∧ Config.N < 2 ^ 2048 ∧ Config.N % 2 = 1 ∧ Config.N % 2 ^ 16 = 0xc7e5 ∧
      Config.N =
        25195908475657893494027183240048398571429282126204032027777137836043662020707595556264018525880784406918290641249515082189298559149176184502808489120072844992687392807287776735971418347270261896375014971824691165077613379859095700097330459748808428401797429100642458691817195118746121515172654632282216869987549182422433637259085141865462043576798423387184774447920739934236584823824281198163815010674810451660377306056201619676256133844143603833904414952634432190114657544454178424020924616515723350778707749817125772467962926386356373289912154831438167899885040445364023527381951378636564391212010397122822120720357 := by
  decide +kernel

/-- 2^2048 mod N = 2^2048 - N ends in ...9e3381b (spec/95_test_vectors.md, the value M). -/
theorem test_modulus_complement : (2 ^ 2048 - Config.N) % 16 ^ 16 = 0xc662b739c9e3381b := by decide +kernel

/-- V-CODEC-1. -/
theorem test_intBytes :
    intBytes 0 = [0x00#8] ∧ intBytes 1 = [0x01#8] ∧ intBytes 255 = [0xFF#8] ∧ intBytes 256 = [0x01#8, 0x00#8] ∧
      (intBytes (2 ^ 2040 - 1)).length = 255 := by decide +kernel

/-- V-SHA-1: SHA256("abc"). -/
theorem test_sha256_abc :
    bytesToInt (sha256 [0x61#8, 0x62#8, 0x63#8]) =
      0xba7816bf8f01cfea414140de5dae2223b00361a396177a9cb410ff61f20015ad := by decide +kernel

/-- V-SHA-3: SHA256 of the 72-byte message of V-DOC-1, which takes two blocks. -/
theorem test_sha256_two_blocks :
    bytesToInt (sha256 (List.replicate 32 0x01#8 ++ List.replicate 32 0x02#8 ++ u64BE 50000)) =
      0xe80de80f6dde14cd2dd9690f3e2215b4609810bd35a10d531095c314883dfd16 := by decide +kernel

/-- V-MR-3: the witnesses of rounds 0 and 1 for n = 11, and of round 3 for n = 53. -/
theorem test_witness : witness 11 0 = 4 ∧ witness 11 1 = 7 ∧ witness 53 3 = 9 := by decide +kernel

/-- V-MR-1: the witness of round 0 for V-DOC-1's L, a 32-byte candidate. -/
theorem test_witness_large :
    witness 0x9cf29c5108763beeb964557e1e89ea90d441c9b6e2286d0c4c50ca1e8b3b4c21 0 =
      0x8f273714d7e1f9f95e49d6fcc27710c956acd83c9f6073025553bb77d010813f := by decide +kernel

/-- V-MR-1: round 0 for V-DOC-1's L passes at its fourth squaring. -/
theorem test_round_passes :
    roundPass 0x9cf29c5108763beeb964557e1e89ea90d441c9b6e2286d0c4c50ca1e8b3b4c21 0 = true := by decide +kernel

/-- V-PT-18: for 56052361 round 0 passes and round 1 fails; V-PT-2 to V-PT-6, V-PT-8, V-PT-16, V-PT-21. -/
theorem test_isPrime :
    roundPass 56052361 0 = true ∧ isPrime 56052361 = false ∧ isPrime 0 = false ∧ isPrime 1 = false ∧
      isPrime 2 = true ∧ isPrime 3 = true ∧ isPrime 4 = false ∧ isPrime 9 = false ∧ isPrime 3599 = false ∧
      isPrime 49 = false := by decide +kernel

/-- V-H2P-1, V-H2P-8, V-H2P-13: the candidate that the leading bytes give. -/
theorem test_prefixCandidate :
    prefixCandidate 0 = 0 ∧ prefixCandidate (2 ^ 256) = 2 ^ 248 ∧ prefixCandidate (2 ^ 300 + 5) = 2 ^ 252 := by
  decide +kernel

/-! ## One step of each command -/

/-- V-MA-2: (N - 1)^2 mod N = 1, at the commit. -/
theorem test_sqrmod_commit :
    after (fun t => t.wreg 1) (exec (.sqrmod 1 0) (accepted (.sqrmod 1 0) (loaded (Config.N - 1) 7))) =
      some 1#2048 := by decide +kernel

/-- V-MA-4: W0 = N fails the check with ERANGE, at the accept; W1 keeps its value. -/
theorem test_sqrmod_erange :
    after (fun t => (t.statusWord, t.cmd, t.wreg 1)) (step (issuing 0x00000041#32 (loaded Config.N 7))) =
      some (0x302, 0x41#32, 7#2048) := by decide +kernel

/-- V-MA-8b: (N - 1) * 2 mod N = N - 2. -/
theorem test_mulmod_commit :
    after (fun t => (t.wreg 2).toNat)
      (exec (.mulmod 2 0 1) (accepted (.mulmod 2 0 1) (loaded (Config.N - 1) 2))) = some (Config.N - 2) := by
  decide +kernel

/-- V-MA-8: the second operand's check, ERANGE. -/
theorem test_mulmod_erange :
    after (fun t => (t.statusWord, t.wreg 2)) (step (issuing 0x00001082#32 (loaded 5 Config.N))) =
      some (0x302, 0#2048) := by decide +kernel

/-- An exponent bit of 0 leaves the result and squares the power: base 2, exponent 4, first step
(spec/40_modarith.md R113). -/
theorem test_modexp_zero_bit :
    after (fun t => (t.loop.result, t.loop.sq, t.iter))
      (exec (.modexp 2 0 1) (accepted (.modexp 2 0 1) (loaded 2 4))) = some (1, 4, 1#64) := by decide +kernel

/-- V-MA-10: 0^0 = 1: no iteration, the first sequencer step commits. -/
theorem test_modexp_zero_zero :
    after (fun t => (t.wreg 2, t.iter, t.statusWord))
      (exec (.modexp 2 0 1) (accepted (.modexp 2 0 1) (loaded 0 0))) = some (1#2048, 0#64, 0x2) := by decide +kernel

/-- V-MA-15: N mod N = 0, the source also the destination. -/
theorem test_reduce_modulus :
    after (fun t => t.wreg 0) (exec (.reduce 0 0) (accepted (.reduce 0 0) (loaded Config.N 0))) =
      some 0#2048 := by decide +kernel

/-- V-MA-17: N - 1 is unchanged. -/
theorem test_reduce_residue :
    after (fun t => (t.wreg 1).toNat) (exec (.reduce 1 0) (accepted (.reduce 1 0) (loaded (Config.N - 1) 0))) =
      some (Config.N - 1) := by decide +kernel

/-- V-EV-6: with W0 = N and T = 0 the check of T comes first, EARG; with T = 1, ERANGE. -/
theorem test_eval_checks :
    after (·.statusWord) (step (issuing 0x00000048#32 (loaded Config.N 0))) = some 0x202 ∧
      after (·.statusWord) (step (issuing 0x00000048#32 { loaded Config.N 0 with t := 1#64 })) = some 0x302 := by
  decide +kernel

/-- P5: step 4 with PROG_INTERVAL 4 sets PROG and raises irq when PIE is set; the squaring goes on. -/
theorem test_eval_progress :
    after (fun t => (t.loop.acc, t.iter, t.statusWord, t.irq))
      (exec (.eval 1 0)
        { accepted (.eval 1 0) { loaded 2 0 with t := 10#64, progInterval := 4#32, pie := true } with
          iter := 3#64, loop := { Loop.empty with acc := 2 ^ 8, i := 3 } }) =
      some (2 ^ 16, 4#64, 0x5, true) := by decide +kernel

/-- V-PR-4: the order of the checks: EARG, EDOM, ERANGE. -/
theorem test_prove_checks :
    after (·.statusWord) (step (issuing 0x00000089#32 (loaded Config.N 0))) = some 0x202 ∧
      after (·.statusWord) (step (issuing 0x00000089#32 { loaded Config.N 0 with t := 1#64, l := 1#288 })) =
        some 0x402 ∧
      after (·.statusWord) (step (issuing 0x00000089#32 { loaded Config.N 0 with t := 1#64, l := 3#288 })) =
        some 0x302 := by decide +kernel

/-- An iteration with a quotient bit of 1: remainder 5 and divisor 7 give bit 1 and remainder 3, proof 2 becomes
2 * 2 * 3 = 12 (spec/43_prove.md R180, R181, by hand). -/
theorem test_prove_step :
    after (fun t => (t.loop.remainder, t.loop.proof, t.loop.i))
      (exec (.prove 2 0)
        { accepted (.prove 2 0) { loaded 3 0 with t := 10#64, l := 7#288 } with
          loop := { Loop.empty with remainder := 5, proof := 2, i := 1 } }) = some (3, 12, 2) := by decide +kernel

/-- V-H2P-5: the candidate 9 fails trial division; the search goes on with 11. -/
theorem test_h2py_rejects :
    after (fun t => (t.loop.cand, t.loop.found, t.iter)) (exec (.h2py 1) (accepted (.h2py 1) (loaded 0 9))) =
      some (11, false, 1#64) := by decide +kernel

/-- V-H2P-3: the even candidate 2 is made 3 and accepted in one step. -/
theorem test_h2py_accepts :
    after (fun t => (t.loop.cand, t.loop.found, t.iter, t.l)) (exec (.h2py 1) (accepted (.h2py 1) (loaded 0 2))) =
      some (3, true, 1#64, 0#288) := by decide +kernel

/-- V-H2P-11: from SEED 0 the first candidate is 1, which is rejected. -/
theorem test_h2ps_rejects_one :
    after (fun t => (t.loop.cand, t.loop.found)) (exec .h2ps (accepted .h2ps State.reset)) = some (3, false) := by
  decide +kernel

/-- The commit of a search writes L and PRIME (spec/42_hash_to_prime.md R158). -/
theorem test_h2ps_commit :
    after (fun t => (t.l, t.statusWord))
      (exec .h2ps { finished State.reset with loop := { Loop.empty with cand := 3, found := true } }) =
      some (3#288, 0xA) := by decide +kernel

/-- V-PT-4: L = 2 is prime. -/
theorem test_ptest_two :
    after (fun t => (t.statusWord, t.iter)) (exec .ptest (accepted .ptest { State.reset with l := 2#288 })) =
      some (0xA, 0#64) := by decide +kernel

/-- V-PT-22: a composite L clears PRIME. -/
theorem test_ptest_clears :
    after (fun t => t.statusWord) (exec .ptest (accepted .ptest { State.reset with l := 4#288, prime := true })) =
      some 0x2 := by decide +kernel

/-- V-EV-8 and P4 step 5: an abort pending at the last step boundary cancels in place of the commit. -/
theorem test_abort_beats_commit :
    after (fun t => (t.statusWord, t.iter, t.wreg 1))
      (exec (.eval 1 0) { finished (loaded 3 0) with abortPending := true, iter := 2#64 }) =
      some (0x502, 2#64, 0#2048) := by decide +kernel

/-! ## The port -/

/-- V-CODEC-3, V-CODEC-5, V-CODEC-6: big-endian windows. -/
theorem test_read_windows :
    after (·.resp) (step (reading 0x1FC#12 4 (loaded 1 0))) = some (.read .okay 0x00000001#32) ∧
      after (·.resp) (step (reading 0x060#12 4 { State.reset with l := BitVec.ofNat 288 (2 ^ 256 + 297) })) =
        some (.read .okay 0x00000001#32) ∧
      after (·.resp) (step (reading 0x080#12 4 { State.reset with l := BitVec.ofNat 288 (2 ^ 256 + 297) })) =
        some (.read .okay 0x00000129#32) ∧
      after (·.resp) (step (reading 0x900#12 4 State.reset)) = some (.read .okay 0xC7970CEE#32) ∧
      after (·.resp) (step (reading 0x9FC#12 4 State.reset)) = some (.read .okay 0x361CC7E5#32) ∧
      after (·.resp) (step (reading 0x003#12 1 State.reset)) = some (.read .okay 0x01#32) := by decide +kernel

/-- V-CODEC-4: a 1-byte write replaces one byte of W0. -/
theorem test_write_byte :
    after (fun t => (t.wreg 0).toNat) (step (writing 0x100#12 1 0x01#32 (loaded 0xAB 0))) =
      some (2 ^ 2040 + 0xAB) := by decide +kernel

/-- V-PORT-1, V-PORT-2, V-PORT-6: reads that get ERROR, and the last word of REM, which does not. -/
theorem test_read_errors :
    [(0x101#12, 4), (0x100#12, 2), (0x024#12, 4), (0x0C4#12, 4), (0xFFC#12, 4), (0x084#12, 1), (0x0C0#12, 4)].map
      (fun p => after (·.resp) (step (reading p.1 p.2 State.reset))) =
    [some (.read .error 0#32), some (.read .error 0#32), some (.read .error 0#32), some (.read .error 0#32),
      some (.read .error 0#32), some (.read .error 0#32), some (.read .okay 0#32)] := by decide +kernel

/-- V-PORT-3 to V-PORT-5: writes that get ERROR. -/
theorem test_write_errors :
    [(0x000#12, 4), (0x00D#12, 1), (0x018#12, 4), (0x0A0#12, 4), (0x900#12, 4)].all
      (fun p => after (fun t => (t.resp, t.withSched [])) (step (writing p.1 p.2 0x1#32 State.reset)) =
        some (.write .error, State.reset.answer (.write .error))) = true := by decide +kernel

/-- V-PORT-7: CTRL takes bits 7:0 from the byte at 0x007 only. -/
theorem test_write_ctrl :
    after (·.ctrlWord) (step (writing 0x007#12 1 0x01#32 State.reset)) = some 1 ∧
      after (·.ctrlWord) (step (writing 0x004#12 1 0xFF#32 { State.reset with ie := true })) = some 1 := by
  decide +kernel

/-- V-PORT-8: STATUS takes bits 7:0 from the byte at 0x00B only. -/
theorem test_write_status :
    after (·.done) (step (writing 0x008#12 1 0x02#32 { State.reset with done := true })) = some true ∧
      after (·.done) (step (writing 0x00B#12 1 0x02#32 { State.reset with done := true })) = some false ∧
      after (·.done) (step (writing 0x008#12 4 0x02#32 { State.reset with done := true })) = some false := by
  decide +kernel

/-- V-PORT-9: while a command runs, W1, CMD and T refuse a write. -/
theorem test_write_while_busy :
    [(0x200#12, 4), (0x00C#12, 4), (0x014#12, 4), (0x008#12, 4), (0x004#12, 4)].map
      (fun p => after (·.resp) (step (writing p.1 p.2 0x5#32 (finished State.reset)))) =
    [some (.write .error), some (.write .error), some (.write .error), some (.write .okay),
      some (.write .okay)] := by decide +kernel

/-- V-PORT-10: ABORT while idle sets no latch. -/
theorem test_abort_while_idle :
    after (fun t => (t.abortPending, t.ctrlWord)) (step (writing 0x004#12 4 0x4#32 { State.reset with ie := true })) =
      some (false, 0) := by decide +kernel

/-- The step after `withFetchWord` issues the command, whatever state it starts from (log entry 7). -/
theorem test_withFetchWord :
    after (fun t => (t.op, t.phase)) (step (State.reset.withFetchWord 32 0x00000011)) = some (.ptest, .run) := by
  decide +kernel

/-! ## States that meet the hypotheses of the statements, one theorem for each statement that has hypotheses -/

/-- A command running with the given latches and loop. -/
def runningAt (i : Instr) (n : Snap) (p : Loop) (d : Bool) : State :=
  { State.reset with phase := .run, op := i, snap := n, loop := p, doneLoop := d, cmd := encode i }

/-- SQRMOD at its commit, squaring 3 into W1. -/
def squaring : State := runningAt (.sqrmod 1 0) { Snap.empty with rs1 := 3#2048 } Loop.empty true

/-- PROVE at its commit, with proof 9 and remainder 2. -/
def proving : State :=
  runningAt (.prove 2 0) { Snap.empty with rs1 := 3#2048, t := 1#64, l := 3#288 }
    { Loop.empty with proof := 9, remainder := 2, i := 1 } true

/-- H2PS at its commit, with the prime 3. -/
def searching : State := runningAt .h2ps Snap.empty { Loop.empty with cand := 3, found := true } true

/-- H2PY at its commit, with the prime 3. -/
def searchingPrefix : State := runningAt (.h2py 1) Snap.empty { Loop.empty with cand := 3, found := true } true

/-- PTEST at its commit, with L = 2. -/
def testing : State := runningAt .ptest { Snap.empty with l := 2#288 } Loop.empty true

/-- EVAL with W0 = 2 and T = 2, after one iteration. -/
def evaluating : State :=
  { runningAt (.eval 1 0) { Snap.empty with rs1 := 2#2048, t := 2#64 } { Loop.empty with acc := 4, i := 1 } false with
    w := (loaded 2 0).w, t := 2#64, iter := 1#64 }

/-- Operands for EVAL and PROVE at the least T and L and the greatest base. -/
def leastOperands : State := { loaded (Config.N - 1) 1 with t := 1#64, l := 2#288 }

theorem witness_StepRunsTheIssuedCommand :
    (issuing 0x41#32 State.reset).rst = .released ∧ (issuing 0x41#32 State.reset).phase = .idle ∧
      (issuing 0x41#32 State.reset).sched = [.write 0x00C#12 4 0x41#32] ∧ decode 0x41#32 = .ok (.sqrmod 1 0) :=
  ⟨rfl, rfl, rfl, by decide⟩

theorem witness_StepRunsTheRunningCommand :
    (squaring.rst = .released ∧ squaring.phase = .run ∧ squaring.sched = []) ∧
      (squaring.withSched [.sequencer]).sched = [.sequencer] := ⟨⟨rfl, rfl, rfl⟩, rfl⟩

theorem witness_IllegalWordCompletesWithEill :
    (issuing 0#32 State.reset).rst = .released ∧ (issuing 0#32 State.reset).phase = .idle ∧
      (issuing 0#32 State.reset).sched = [.write 0x00C#12 4 0#32] ∧ illegalWord 0#32 :=
  ⟨rfl, rfl, rfl, by decide⟩

/-- A word for each outcome of the check table, the hypotheses on the state as in the witness before. -/
theorem witness_IssuedWordIsCheckedInOrder :
    (issuing 0#32 leastOperands).rst = .released ∧ (issuing 0#32 leastOperands).phase = .idle ∧
      checkWord 0x89#32 leastOperands = .ok ∧ checkWord 0x3F#32 leastOperands = .eill ∧
      checkWord 0x89#32 { leastOperands with t := 0#64 } = .earg ∧
      checkWord 0x89#32 { leastOperands with l := 1#288 } = .edom ∧
      checkWord 0x89#32 (leastOperands.setW 0 Config.N) = .erange ∧
      checkWord 0x1082#32 (leastOperands.setW 1 Config.N) = .erange := by decide +kernel

theorem witness_FailedCheckIsPrecise :
    State.reset.phase = .idle ∧ State.reset.abortPending = false ∧
      checkWord (encode (.eval 1 0)) State.reset ≠ .ok ∧ checkWord (encode (.prove 1 0)) State.reset ≠ .ok ∧
      checkWord (encode (.sqrmod 1 0)) (loaded Config.N 0) ≠ .ok ∧
      checkWord (encode (.mulmod 2 0 1)) (loaded 0 Config.N) ≠ .ok ∧
      checkWord (encode (.modexp 2 0 1)) (loaded Config.N 0) ≠ .ok := by decide +kernel

theorem witness_AcceptStartsTheCommand :
    leastOperands.phase = .idle ∧
      [.sqrmod 1 0, .mulmod 2 0 1, .modexp 2 0 1, .reduce 1 0, .eval 1 0, .prove 2 0, .h2py 1, .h2ps, .ptest].all
        (fun i => checkWord (encode i) leastOperands == .ok) = true := by decide +kernel

theorem witness_IterationCountsAndReportsProgress :
    evaluating.phase = .run ∧ evaluating.abortPending = false ∧ evaluating.doneLoop = false := ⟨rfl, rfl, rfl⟩

theorem witness_AbortCancelsEveryCommand :
    { squaring with abortPending := true }.phase = .run ∧
      { squaring with abortPending := true }.abortPending = true := ⟨rfl, rfl⟩

/-- A step that changes a working register, L, REM and PRIME, each. -/
theorem witness_DestinationsChangeOnlyAtCommit :
    (squaring.sched = [] ∧ after (fun t => decide (t.w ≠ squaring.w)) (step squaring) = some true) ∧
      (searching.sched = [] ∧ after (fun t => decide (t.l ≠ searching.l)) (step searching) = some true) ∧
      (proving.sched = [] ∧ after (fun t => decide (t.rem ≠ proving.rem)) (step proving) = some true) ∧
      (testing.sched = [] ∧ after (fun t => decide (t.prime ≠ testing.prime)) (step testing) = some true) := by
  decide +kernel

/-- An exec that changes REM, L by each search, and PRIME by each command; PROG kept; a destination that is another. -/
theorem witness_CommandsWriteOnlyTheirDestinations :
    after (fun t => decide (t.rem ≠ proving.rem)) (exec (.prove 2 0) proving) = some true ∧
      after (fun t => decide (t.l ≠ searching.l ∧ t.prime ≠ searching.prime)) (exec .h2ps searching) =
        some true ∧
      after (fun t => decide (t.l ≠ searchingPrefix.l ∧ t.prime ≠ searchingPrefix.prime))
        (exec (.h2py 1) searchingPrefix) = some true ∧
      after (fun t => decide (t.prime ≠ testing.prime)) (exec .ptest testing) = some true ∧
      after (·.prog) (exec (.sqrmod 1 0) { squaring with prog := true }) = some true ∧
      destination (.sqrmod 1 0) ≠ some 0 := by decide +kernel

theorem witness_PrimeIsWrittenOnlyByPrimalityCommits :
    after (fun t => decide (t.prime ≠ testing.prime)) (step testing) = some true ∧
      after (fun t => decide (t.prime ≠ searching.prime)) (step searching) = some true ∧
      after (fun t => decide (t.prime ≠ searchingPrefix.prime)) (step searchingPrefix) = some true ∧
      after (fun t => decide (t.prime ≠ true))
        (step { State.reset with prime := true, rst := .held, sched := [.resetHigh] }) = some true ∧
      testing.phase = .run ∧ testing.abortPending = false ∧ testing.doneLoop = true := by decide +kernel

/-- The end of a running command; a CMD write that is ILLEGAL, fails a check, or starts a command; a STATUS write and a
CTRL write of each size. -/
theorem witness_CompletionSignalsTheHost :
    (squaring.phase = .run ∧
      after (fun t => decide (t.phase = .idle ∧ t.irq = true)) (exec (.sqrmod 1 0) { squaring with ie := true }) =
        some true) ∧
      (((issuing 0#32 State.reset).rst = .released ∧ (issuing 0#32 State.reset).phase = .idle ∧
        (issuing 0#32 State.reset).sched = [.write 0x00C#12 4 0#32]) ∧
        checkWord 0#32 State.reset ≠ .ok ∧ checkWord 0x48#32 State.reset ≠ .ok ∧ checkWord 0x41#32 State.reset = .ok) ∧
      ((writing 0x008#12 4 0x06#32 State.reset).rst = .released ∧
        (writing 0x008#12 4 0x06#32 State.reset).sched = [.write 0x008#12 4 0x06#32] ∧
        (writing 0x00B#12 1 0x06#32 State.reset).sched = [.write 0x00B#12 1 0x06#32]) ∧
      ((writing 0x004#12 4 0x03#32 State.reset).rst = .released ∧
        (writing 0x004#12 4 0x03#32 State.reset).sched = [.write 0x004#12 4 0x03#32] ∧
        (writing 0x007#12 1 0x02#32 State.reset).sched = [.write 0x007#12 1 0x02#32]) := by decide +kernel

theorem witness_SqrmodComputes :
    leastOperands.phase = .idle ∧ leastOperands.abortPending = false ∧ (leastOperands.wreg 0).toNat < Config.N := by
  decide +kernel

theorem witness_MulmodComputes :
    leastOperands.phase = .idle ∧ leastOperands.abortPending = false ∧
      (leastOperands.wreg 0).toNat < Config.N ∧ (leastOperands.wreg 1).toNat < Config.N := by decide +kernel

theorem witness_ReduceComputes :
    (loaded (2 ^ 2048 - 1) 0).phase = .idle ∧ (loaded (2 ^ 2048 - 1) 0).abortPending = false := by decide +kernel

theorem witness_PtestComputes : State.reset.phase = .idle ∧ State.reset.abortPending = false := ⟨rfl, rfl⟩

/-- The exponent at both ends of its range: 0, and 2048 bits long. -/
theorem witness_ModexpComputes :
    (loaded 2 0).phase = .idle ∧ (loaded 2 0).abortPending = false ∧ ((loaded 2 0).wreg 0).toNat < Config.N ∧
      ((loaded 2 0).wreg 1).toNat = 0 ∧ bitlen ((loaded 2 (2 ^ 2048 - 1)).wreg 1).toNat = 2048 := by decide +kernel

theorem witness_EvalComputes :
    leastOperands.phase = .idle ∧ leastOperands.abortPending = false ∧ 1 ≤ leastOperands.t.toNat ∧
      (leastOperands.wreg 0).toNat < Config.N := by decide +kernel

theorem witness_ProveComputes :
    leastOperands.phase = .idle ∧ leastOperands.abortPending = false ∧ 1 ≤ leastOperands.t.toNat ∧
      2 ≤ leastOperands.l.toNat ∧ (leastOperands.wreg 0).toNat < Config.N := by decide +kernel

theorem witness_H2pyComputes : (loaded 0 9).phase = .idle ∧ (loaded 0 9).abortPending = false := ⟨rfl, rfl⟩

theorem witness_H2psComputes : State.reset.phase = .idle ∧ State.reset.abortPending = false := ⟨rfl, rfl⟩

/-- EVAL from W0, and PROVE from W1 in a later state whose L the host has written. -/
theorem witness_ProofOfEvaluationVerifies :
    let later := { leastOperands.setW 1 (Config.N - 1) with l := 3#288 }
    leastOperands.phase = .idle ∧ leastOperands.abortPending = false ∧ later.phase = .idle ∧
      later.abortPending = false ∧ later.t = leastOperands.t ∧ later.wreg 1 = leastOperands.wreg 0 ∧
      1 ≤ leastOperands.t.toNat ∧ 2 ≤ later.l.toNat ∧ (leastOperands.wreg 0).toNat < Config.N := by decide +kernel

theorem witness_DivstepIsExact : 2 ≤ 2 ∧ 1 < 2 := by decide

theorem witness_MillerRabinRoundIsTheStrongTest : 5 ≤ 5 ∧ 5 % 2 = 1 ∧ 5 - 1 = 1 * 2 ^ 2 ∧ 1 % 2 = 1 := by decide

theorem witness_WitnessInRange : 5 ≤ 5 := by decide

theorem witness_PrimesAreNeverRejected : Nat.Prime 2 ∧ Nat.Prime 53 ∧ 53 ≠ 2 := by norm_num

theorem witness_CodecRoundTrips : 0 < 256 ^ 0 ∧ 255 < 256 ^ 1 ∧ 0 < 1 ∧ 255 < 256 := by decide

/-- Each clause at the edges: a misaligned and a two-byte read, the ends of the reserved ranges and of the others. -/
theorem witness_HostReadReturnsTheWindowBytes :
    (reading 0x000#12 4 State.reset).rst = .released ∧
      (reading 0x000#12 4 State.reset).sched = [.read 0x000#12 4] ∧
      ¬ lawfulAccess 0x101#12 4 ∧ ¬ lawfulAccess 0x100#12 2 ∧
      (∀ a ∈ [0x024#12, 0x03F#12, 0x084#12, 0x09F#12, 0x0C4#12, 0x0FF#12, 0xA00#12, 0xFFF#12], reservedOffset a) ∧
      (∀ a ∈ [0x000#12, 0x023#12, 0x040#12, 0x083#12, 0x0A0#12, 0x0C3#12, 0x100#12, 0x9FF#12],
        lawfulAccess a 1 ∧ ¬ reservedOffset a) ∧
      (∀ a ∈ [0x000#12, 0x080#12, 0x9FC#12], lawfulAccess a 4 ∧ ¬ reservedOffset a) := by
  simp [reservedOffset, lawfulAccess, reading, State.reset]

/-- The last byte of a window of each size, the last working register, and the ends of the reserved ranges. -/
theorem witness_WindowHoldsTheRegisterValue :
    0 < PortReg.size .id ∧ 255 < PortReg.size .n ∧ 35 < PortReg.size .l ∧ 3 < 4 ∧ 7 < 8 ∧ 31 < 32 ∧ 35 < 36 ∧
      255 < 256 ∧ reservedOffset 0x024#12 ∧ reservedOffset 0xFFF#12 := by
  simp [PortReg.size, reservedOffset]

/-- The first and last offset of each data window. -/
theorem witness_DataWriteReplacesItsBytes :
    (writing 0x010#12 4 5#32 State.reset).rst = .released ∧ (writing 0x010#12 4 5#32 State.reset).phase = .idle ∧
      (writing 0x010#12 4 5#32 State.reset).sched = [.write 0x010#12 4 5#32] ∧
      (∀ a ∈ [0x010#12, 0x020#12, 0x040#12, 0x100#12], lawfulAccess a 4 ∧ dataOffset a) ∧
      (∀ a ∈ [0x017#12, 0x023#12, 0x083#12, 0x8FF#12], lawfulAccess a 1 ∧ dataOffset a) := by
  simp [dataOffset, lawfulAccess, writing, State.reset]

theorem witness_ControlRegisterWrite :
    ((writing 0x004#12 4 4#32 squaring).rst = .released ∧
      (writing 0x004#12 4 4#32 squaring).sched = [.write 0x004#12 4 4#32]) ∧
      (writing 0x007#12 1 7#32 State.reset).sched = [.write 0x007#12 1 7#32] ∧
      (writing 0x006#12 1 7#32 State.reset).sched = [.write 0x006#12 1 7#32] ∧
      0x004 ≤ (0x004#12).toNat ∧ (0x006#12).toNat ≤ 0x006 := by decide +kernel

theorem witness_StatusRegisterWrite :
    ((writing 0x008#12 4 6#32 squaring).rst = .released ∧
      (writing 0x008#12 4 6#32 squaring).sched = [.write 0x008#12 4 6#32]) ∧
      (writing 0x00B#12 1 6#32 State.reset).sched = [.write 0x00B#12 1 6#32] ∧
      (writing 0x00A#12 1 6#32 State.reset).sched = [.write 0x00A#12 1 6#32] ∧
      0x008 ≤ (0x008#12).toNat ∧ (0x00A#12).toNat ≤ 0x00A := by decide +kernel

/-- A write that breaks each rule, and a read that breaks each. -/
theorem witness_BrokenPortRuleChangesNothing :
    (writing 0x101#12 4 0#32 State.reset).rst = .released ∧
      (writing 0x101#12 4 0#32 State.reset).sched = [.write 0x101#12 4 0#32] ∧
      brokenWrite State.reset 0x101#12 4 ∧
      (∀ a ∈ [0x00C#12, 0x00F#12, 0x024#12, 0xFFF#12, 0x000#12, 0x003#12, 0x018#12, 0x01F#12, 0x0A0#12, 0x0C3#12,
        0x900#12, 0x9FF#12], brokenWrite State.reset a 1) ∧
      brokenWrite squaring 0x00C#12 4 ∧ brokenWrite squaring 0x8FF#12 1 ∧
      (reading 0x024#12 4 State.reset).rst = .released ∧
      (reading 0x024#12 4 State.reset).sched = [.read 0x024#12 4] ∧ reservedOffset 0x024#12 ∧
      ¬ lawfulAccess 0x102#12 4 := by
  simp [brokenWrite, reservedOffset, readOnlyOffset, lawfulAccess, writing, reading, squaring, runningAt,
    State.reset]

theorem witness_IdIsConstant :
    ((reading 0x000#12 4 State.reset).rst = .released ∧
      (reading 0x000#12 4 State.reset).sched = [.read 0x000#12 4]) ∧
      ((writing 0x003#12 1 0#32 State.reset).rst = .released ∧ (0x003#12).toNat ≤ 0x003 ∧
        (writing 0x003#12 1 0#32 State.reset).sched = [.write 0x003#12 1 0#32]) := by decide +kernel

/-- While SQRMOD runs: a CTRL write with ABORT, which changes the request. -/
theorem witness_BusyHostCannotTouchTheCommand :
    (writing 0x007#12 1 4#32 squaring).rst = .released ∧ (writing 0x007#12 1 4#32 squaring).phase = .run ∧
      (writing 0x007#12 1 4#32 squaring).sched = [.write 0x007#12 1 4#32] ∧
      after (·.abortPending) (step (writing 0x007#12 1 4#32 squaring)) = some true ∧
      squaring.abortPending = false := by decide +kernel

theorem witness_HostReadsNeverChangeARun :
    squaring.rst = .released ∧
      ∀ m ∈ [Action.read 0x00B#12 1, Action.sequencer], m = .sequencer ∨ ∃ a n, m = .read a n := by
  simp [squaring, runningAt, State.reset]

theorem witness_ResetPulseGivesTheResetState :
    ({ squaring with sched := [.resetLow, .sequencer, .resetHigh] }.sched =
        .resetLow :: ([.sequencer] ++ .resetHigh :: []) ∧ ∀ m ∈ [Action.sequencer], m ≠ .resetHigh) ∧
      ({ squaring with rst := .held, sched := [.sequencer] }.rst = .held ∧
        { squaring with rst := .held, sched := [.sequencer] }.sched = [.sequencer]) ∧
      ({ squaring with rst := .held, sched := [.read 0#12 4] }.rst = .held ∧
        { squaring with rst := .held, sched := [.read 0#12 4] }.sched = [.read 0#12 4]) := by decide +kernel

theorem witness_NoStepStopsAfterReset :
    State.reset.rst ≠ .unset ∧ { squaring with rst := .held }.rst ≠ .unset := by decide +kernel

theorem witness_HostTransactionBeforeResetFaults :
    ({ State.reset with rst := .unset, sched := [.read 0#12 4] }.rst = .unset ∧
      { State.reset with rst := .unset, sched := [.read 0#12 4] }.sched = [.read 0#12 4]) ∧
      { State.reset with rst := .unset, sched := [.write 0x00C#12 4 0#32] }.sched = [.write 0x00C#12 4 0#32] :=
  ⟨⟨rfl, rfl⟩, rfl⟩

/-- EVAL half done meets the invariant, and steps. -/
theorem witness_StepKeepsTheInvariant : evaluating.Inv ∧ ∃ t, step evaluating = .next t := by
  refine ⟨⟨by decide, by decide, by decide, fun _ => ⟨rfl, rfl, rfl, ?_, ?_, ?_⟩⟩, ⟨_, rfl⟩⟩
  · decide +kernel
  · decide +kernel
  · show _ ∧ _ ∧ _ ∧ _ ∧ _
    decide +kernel

/-- The least number above 3, a prime of the table and a composite; the least even number above 2. -/
theorem witness_PrimalityPredicateIsTheRule : 3 < 4 ∧ 3 < 53 ∧ 3 < 59 * 61 ∧ 0 < 40 ∧ 2 < 4 ∧ 4 % 2 = 0 ∧ 1 % 2 = 1 := by
  decide

/-- Both sides of 2^256, and the least value above 0. -/
theorem witness_FirstCandidateIsTheLeadingBytes : 2 ^ 256 - 1 < 2 ^ 256 ∧ 2 ^ 256 ≤ 2 ^ 256 ∧ 0 < 1 := by decide

end Sys2Proof.Tests
end

section
/-! PROOFS. The codec of spec/00_scope.md R9. Both directions are read from the last byte of the string, where the value's
remainder modulo 256 stands; the length of `intBytes` comes from the two bounds of `minBytes`. -/

namespace Sys2Proof.Machine

/-! ## bytesToInt -/

@[simp] theorem bytesToInt_nil : bytesToInt [] = 0 := rfl

@[simp] theorem bytesToInt_concat (b : List Byte) (x : Byte) :
    bytesToInt (b ++ [x]) = 256 * bytesToInt b + x.toNat := by
  simp [bytesToInt]

theorem bytesToInt_cons (x : Byte) (b : List Byte) :
    bytesToInt (x :: b) = x.toNat * 256 ^ b.length + bytesToInt b := by
  induction b using List.reverseRecOn with
  | nil => simp [bytesToInt]
  | append_singleton b y ih =>
    rw [← List.cons_append, bytesToInt_concat, ih, bytesToInt_concat, List.length_append, List.length_singleton]
    ring

theorem bytesToInt_lt (b : List Byte) : bytesToInt b < 256 ^ b.length := by
  induction b with
  | nil => simp
  | cons x b ih =>
    have hx := x.isLt
    rw [bytesToInt_cons, List.length_cons, pow_succ]
    nlinarith

/-! ## intToBytes -/

@[simp] theorem intToBytes_zero (v : Nat) : intToBytes v 0 = [] := rfl

@[simp] theorem intToBytes_length (v w : Nat) : (intToBytes v w).length = w := by simp [intToBytes]

theorem intToBytes_getElem? {v w k : Nat} (h : k < w) : (intToBytes v w)[k]? = some (byteAt v w k) := by
  simp [intToBytes, h]

/-- Every byte of `v` but the last is a byte of `v / 256`. -/
theorem byteAt_succ {v w k : Nat} (h : k < w) : byteAt v (w + 1) k = byteAt (v / 256) w k := by
  have hexp : w + 1 - 1 - k = (w - 1 - k) + 1 := by omega
  rw [byteAt, byteAt, hexp, pow_succ', Nat.div_div_eq_div_mul]

theorem intToBytes_succ (v w : Nat) : intToBytes v (w + 1) = intToBytes (v / 256) w ++ [BitVec.ofNat 8 v] := by
  have hlast : byteAt v (w + 1) w = BitVec.ofNat 8 v := by simp [byteAt]
  rw [intToBytes, List.range_succ, List.map_append, List.map_singleton, hlast, intToBytes]
  congr 1
  exact List.map_congr_left fun k hk => byteAt_succ (List.mem_range.mp hk)

/-! ## The round trips -/

theorem bytesToInt_intToBytes (v w : Nat) : bytesToInt (intToBytes v w) = v % 256 ^ w := by
  induction w generalizing v with
  | zero => simp [Nat.mod_one]
  | succ w ih =>
    rw [intToBytes_succ, bytesToInt_concat, ih, pow_succ', Nat.mod_mul, BitVec.toNat_ofNat]
    omega

theorem bytesToInt_intToBytes_of_lt {v w : Nat} (h : v < 256 ^ w) : bytesToInt (intToBytes v w) = v := by
  rw [bytesToInt_intToBytes, Nat.mod_eq_of_lt h]

theorem intToBytes_bytesToInt (b : List Byte) : intToBytes (bytesToInt b) b.length = b := by
  induction b using List.reverseRecOn with
  | nil => rfl
  | append_singleton b x ih =>
    have hx := x.isLt
    have hinit : (256 * bytesToInt b + x.toNat) / 256 = bytesToInt b := by omega
    have hlast : BitVec.ofNat 8 (256 * bytesToInt b + x.toNat) = x := by
      apply BitVec.eq_of_toNat_eq
      rw [BitVec.toNat_ofNat]
      omega
    rw [List.length_append, List.length_singleton, bytesToInt_concat, intToBytes_succ, hinit, hlast, ih]

/-! ## The minimum length -/

theorem bitlen_le_iff {v k : Nat} : bitlen v ≤ k ↔ v < 2 ^ k := by
  by_cases hv : v = 0
  · simp [bitlen, hv]
  · rw [bitlen, if_neg hv, Nat.succ_le_iff, Nat.log2_lt hv]

theorem lt_256_pow_iff {v m : Nat} : v < 256 ^ m ↔ bitlen v ≤ 8 * m := by
  rw [bitlen_le_iff, pow_mul, show 2 ^ 8 = 256 from rfl]

theorem lt_256_pow_minBytes (v : Nat) : v < 256 ^ minBytes v := by
  rw [lt_256_pow_iff, minBytes]
  omega

theorem minBytes_pos (v : Nat) : 0 < minBytes v := by
  rw [minBytes]
  omega

theorem bitlen_pos {v : Nat} (h : 0 < v) : 0 < bitlen v := by simp [bitlen, h.ne']

theorem pow_minBytes_pred_le {v : Nat} (h : 0 < v) : 256 ^ (minBytes v - 1) ≤ v := by
  have hlen := bitlen_pos h
  rw [← not_lt, lt_256_pow_iff, minBytes]
  omega

theorem bytesToInt_intBytes (v : Nat) : bytesToInt (intBytes v) = v :=
  bytesToInt_intToBytes_of_lt (lt_256_pow_minBytes v)

theorem intBytes_head? (v : Nat) : (intBytes v).head? = some (BitVec.ofNat 8 (v / 256 ^ (minBytes v - 1))) := by
  rw [List.head?_eq_getElem?, intBytes, intToBytes_getElem? (minBytes_pos v), byteAt, Nat.sub_zero]

/-- The leading byte of a value above 0 is its quotient by `256 ^ (minBytes v - 1)`, which lies in [1, 255]. -/
theorem intBytes_head?_ne_zero {v : Nat} (h : 0 < v) : (intBytes v).head? ≠ some 0#8 := by
  have hpos : 0 < v / 256 ^ (minBytes v - 1) := Nat.div_pos (pow_minBytes_pred_le h) (by positivity)
  have hlt : v / 256 ^ (minBytes v - 1) < 256 := by
    rw [Nat.div_lt_iff_lt_mul (by positivity), mul_pow_sub_one (minBytes_pos v).ne']
    exact lt_256_pow_minBytes v
  intro hzero
  rw [intBytes_head?, Option.some_inj] at hzero
  have hmod := congrArg BitVec.toNat hzero
  rw [BitVec.toNat_ofNat, BitVec.toNat_ofNat] at hmod
  omega

/-- Settles O32: the big-endian sum and the round trips by induction from the last byte, the minimum length from the
bounds of `minBytes`. -/
theorem codecRoundTrips : Obligations.CodecRoundTrips :=
  ⟨bytesToInt_nil, bytesToInt_cons, fun _ _ _ => intToBytes_getElem?,
    fun v w h => ⟨bytesToInt_intToBytes_of_lt h, intToBytes_length v w⟩,
    intToBytes_bytesToInt, bytesToInt_intBytes, by decide, fun _ => intBytes_head?_ne_zero⟩

end Sys2Proof.Machine
end

section
/-! PROOFS. The laws that statements about a step rest on: the parts of a command, the port's map, and the
inversion of one step into the move it takes. -/

namespace Sys2Proof.Machine

variable {s t : State}

/-! ## The parts of a command -/

/-- The latches read only W0 to W7, T, L and SEED. -/
theorem snap_congr (i : Instr) (hw : t.w = s.w) (ht : t.t = s.t) (hl : t.l = s.l) (hseed : t.seed = s.seed) :
    (commandOf i).snap t = (commandOf i).snap s := by
  cases i <;> simp only [commandOf, sqrmodCommand, mulmodCommand, modexpCommand, reduceCommand, evalCommand,
    proveCommand, h2pyCommand, h2psCommand, ptestCommand, State.wreg, hw, ht, hl, hseed]

theorem requireResidue_congr {r : WReg} (h : t.wreg r = s.wreg r) : t.requireResidue r = s.requireResidue r := by
  rw [State.requireResidue, State.requireResidue, h]

theorem requireIterations_congr (h : t.t = s.t) : t.requireIterations = s.requireIterations := by
  rw [State.requireIterations, State.requireIterations, h]

theorem requireDivisor_congr (h : t.l = s.l) : t.requireDivisor = s.requireDivisor := by
  rw [State.requireDivisor, State.requireDivisor, h]

/-- The checks read only W0 to W7, T and L. -/
theorem check_congr (i : Instr) (hw : t.w = s.w) (ht : t.t = s.t) (hl : t.l = s.l) :
    (commandOf i).check t = (commandOf i).check s := by
  have hreg (r : WReg) : t.requireResidue r = s.requireResidue r :=
    requireResidue_congr (by rw [State.wreg, State.wreg, hw])
  have hiter := requireIterations_congr ht
  have hdiv := requireDivisor_congr hl
  cases i <;> simp only [commandOf, sqrmodCommand, mulmodCommand, modexpCommand, reduceCommand, evalCommand,
    proveCommand, h2pyCommand, h2psCommand, ptestCommand, hreg, hiter, hdiv]

@[simp] theorem check_latchCommand (i : Instr) (c : Word) :
    (commandOf i).check (s.latchCommand c) = (commandOf i).check s := check_congr i rfl rfl rfl

/-- A commit writes destinations only. -/
theorem commit_frame (i : Instr) (n : Snap) (p : Loop) (s : State) :
    ∃ w l rem prime, (commandOf i).commit n p s = { s with w := w, l := l, rem := rem, prime := prime } := by
  cases i <;> exact ⟨_, _, _, _, rfl⟩

/-- An iteration moves the loop, ITER and PROG, and PROG is not cleared. -/
theorem iterateStep_frame (s : State) (k : Command) :
    ∃ p d n g, s.iterateStep k = { s with loop := p, doneLoop := d, iter := n, prog := s.prog || g } := by
  unfold State.iterateStep
  split
  · exact ⟨_, _, _, _, rfl⟩
  · refine ⟨s.loop, true, s.iter, false, ?_⟩
    rw [Bool.or_false]

theorem iterateStep_of_some {k : Command} {f : Snap → Loop → Loop} (hf : k.iterate = some f) :
    s.iterateStep k =
      { s with loop := f s.snap s.loop, doneLoop := k.done s.snap (f s.snap s.loop) }.tick := by
  simp only [State.iterateStep, hf]

theorem accept_of_check_ok {i : Instr} (h : (commandOf i).check s = .ok) :
    s.accept i (commandOf i) = (s.latchCommand (encode i)).start i (commandOf i) := by
  simp [State.accept, h]

theorem accept_of_check_ne {i : Instr} (h : (commandOf i).check s ≠ .ok) :
    s.accept i (commandOf i) = (s.latchCommand (encode i)).complete ((commandOf i).check s) := by
  simp [State.accept, h]

/-! ## The checks at accept -/

theorem requireResidue_eq_ok {r : WReg} : s.requireResidue r = .ok ↔ (s.wreg r).toNat < Config.N := by
  rw [State.requireResidue]
  split <;> simp <;> omega

theorem requireIterations_eq_ok : s.requireIterations = .ok ↔ 1 ≤ s.t.toNat := by
  rw [State.requireIterations]
  split <;> simp <;> omega

theorem requireDivisor_eq_ok : s.requireDivisor = .ok ↔ 2 ≤ s.l.toNat := by
  rw [State.requireDivisor]
  split <;> simp <;> omega

theorem firstFailure_cons_eq_ok {e : ErrCode} {es : List ErrCode} :
    firstFailure (e :: es) = .ok ↔ e = .ok ∧ firstFailure es = .ok := by
  cases e <;> simp [firstFailure]

theorem firstFailure_pair_eq_ok {a b : ErrCode} : firstFailure [a, b] = .ok ↔ a = .ok ∧ b = .ok := by
  simp [firstFailure_cons_eq_ok, firstFailure]

theorem firstFailure_triple_eq_ok {a b c : ErrCode} :
    firstFailure [a, b, c] = .ok ↔ a = .ok ∧ b = .ok ∧ c = .ok := by
  simp [firstFailure_cons_eq_ok, firstFailure]

/-- A check that fails ends the list; one that passes is left out. -/
theorem firstFailure_ite {p : Prop} [Decidable p] {e : ErrCode} (he : e ≠ .ok) (rest : List ErrCode) :
    firstFailure ((if p then e else .ok) :: rest) = if p then e else firstFailure rest := by
  split
  · cases e with
    | ok => exact absurd rfl he
    | _ => rfl
  · rfl

theorem firstFailure_ne_einternal {es : List ErrCode} (h : ∀ e ∈ es, e ≠ .einternal) :
    firstFailure es ≠ .einternal := by
  induction es with
  | nil => nofun
  | cons e es ih =>
    cases e with
    | ok => exact ih fun e he => h e (List.mem_cons_of_mem _ he)
    | einternal => exact absurd rfl (h _ List.mem_cons_self)
    | _ => nofun

/-- No check gives EINTERNAL (spec/60_exceptions.md R204). -/
theorem check_ne_einternal (i : Instr) (s : State) : (commandOf i).check s ≠ .einternal := by
  have hres (r : WReg) : s.requireResidue r ≠ .einternal := by
    rw [State.requireResidue]
    split <;> decide
  have hiter : s.requireIterations ≠ .einternal := by
    rw [State.requireIterations]
    split <;> decide
  have hdiv : s.requireDivisor ≠ .einternal := by
    rw [State.requireDivisor]
    split <;> decide
  cases i with
  | sqrmod _ rs1 | modexp _ rs1 => exact hres rs1
  | mulmod | eval | prove => exact firstFailure_ne_einternal (by simp [hres, hiter, hdiv])
  | reduce | h2py | h2ps | ptest => nofun

/-! ## The sequencer's next step, by its three cases -/

theorem exec_cancel {i : Instr} (hp : s.phase = .run) (ha : s.abortPending = true) :
    exec i s = .next (s.complete .ecancel) := by
  rw [exec_run hp, State.advance, if_pos ha]

theorem exec_commit {i : Instr} (hp : s.phase = .run) (ha : s.abortPending = false) (hd : s.doneLoop = true) :
    exec i s = .next (s.commitStep (commandOf i)) := by
  simp [exec_run hp, State.advance, ha, hd]

theorem exec_iterate {i : Instr} (hp : s.phase = .run) (ha : s.abortPending = false) (hd : s.doneLoop = false) :
    exec i s = .next (s.iterateStep (commandOf i)) := by
  simp [exec_run hp, State.advance, ha, hd]

/-! ## The address map -/

theorem mem_addressMap (r : PortReg) : r ∈ addressMap := by
  cases r with
  | w q => revert q; decide
  | _ => decide

/-- The windows of two registers do not overlap. -/
theorem windows_disjoint {r q : PortReg} (h : r ≠ q) : r.base + r.size ≤ q.base ∨ q.base + q.size ≤ r.base := by
  have hall : ∀ r ∈ addressMap, ∀ q ∈ addressMap, r ≠ q →
      r.base + r.size ≤ q.base ∨ q.base + q.size ≤ r.base := by decide
  exact hall r (mem_addressMap r) q (mem_addressMap q) h

theorem covers_iff {r : PortReg} {a : Offset} :
    r.covers a = true ↔ r.base ≤ a.toNat ∧ a.toNat < r.base + r.size := by
  simp only [PortReg.covers, Bool.and_eq_true, decide_eq_true_eq]

theorem covers_unique {r q : PortReg} {a : Offset} (hr : r.covers a = true) (hq : q.covers a = true) : r = q := by
  by_contra hne
  have hdisjoint := windows_disjoint hne
  rw [covers_iff] at hr hq
  omega

theorem locate_of_covers {r : PortReg} {a : Offset} (h : r.covers a = true) :
    locate a = some (r, a.toNat - r.base) := by
  have hsome : (addressMap.find? (·.covers a)).isSome := List.find?_isSome.mpr ⟨r, mem_addressMap r, h⟩
  obtain ⟨q, hq⟩ := Option.isSome_iff_exists.mp hsome
  have hqr : q = r := covers_unique (List.find?_some (p := fun r : PortReg => r.covers a) hq) h
  rw [locate, hq, hqr, Option.map_some]

/-! ## A host write, by its target -/

theorem writeTarget_of_locate {a : Offset} {n : Nat} {r : PortReg} {k : Nat} (hlegal : legalAccess a n = true)
    (hloc : locate a = some (r, k)) (hcmd : r = .cmd → n = 4) (hro : r.readOnly = false)
    (hbusy : s.phase = .run → r.alwaysWritable = true) : s.writeTarget a n = some (r, k) := by
  have hnarrow : ¬ (r = .cmd ∧ n ≠ 4) := fun ⟨hr, hn⟩ => hn (hcmd hr)
  have hrefused : ¬ (s.busy = true ∧ ¬ r.alwaysWritable = true) :=
    fun ⟨hb, hw⟩ => hw (hbusy (by simpa [State.busy] using hb))
  simp only [State.writeTarget, hlegal, hloc, hnarrow, hro, hrefused, if_true, if_false, Bool.false_eq_true]

theorem writeTarget_of_readOnly {a : Offset} {n : Nat} {r : PortReg} {k : Nat} (hloc : locate a = some (r, k))
    (hro : r.readOnly = true) : s.writeTarget a n = none := by
  cases h : s.writeTarget a n with
  | none => rfl
  | some target =>
    obtain ⟨q, j⟩ := target
    obtain ⟨-, hq, -, hwritable, -⟩ := writeTarget_some h
    cases hloc.symm.trans hq
    rw [hro] at hwritable
    cases hwritable

theorem hostWrite_refused {a : Offset} {n : Nat} {v : Word} (h : s.writeTarget a n = none) :
    hostWrite a n v s = .next (s.answer (.write .error)) := by
  simp only [hostWrite, h]

theorem hostWrite_cmd {a : Offset} {n k : Nat} {v : Word} (h : s.writeTarget a n = some (.cmd, k)) :
    hostWrite a n v s = issueCommand v (s.answer (.write .okay)) := by
  simp only [hostWrite, h]

theorem hostWrite_store {a : Offset} {n k : Nat} {v : Word} {r : PortReg} (hr : r ≠ .cmd)
    (h : s.writeTarget a n = some (r, k)) :
    hostWrite a n v s = .next ((s.answer (.write .okay)).storeBytes r k (dataBytes n v)) := by
  cases r with
  | cmd => exact absurd rfl hr
  | _ => simp only [hostWrite, h]

theorem alwaysWritable_eq_false {r : PortReg} (hctrl : r ≠ .ctrl) (hstatus : r ≠ .status) :
    r.alwaysWritable = false := by
  cases r with
  | ctrl => exact absurd rfl hctrl
  | status => exact absurd rfl hstatus
  | _ => rfl

theorem storeBytes_data {r : PortReg} (hctrl : r ≠ .ctrl) (hstatus : r ≠ .status) (k : Nat) (bs : List Byte) :
    s.storeBytes r k bs = s.setPort r (bytesToInt (splice (s.image r) k bs)) := by
  cases r with
  | ctrl => exact absurd rfl hctrl
  | status => exact absurd rfl hstatus
  | _ => rfl

theorem storeBytes_ctrl_some {k : Nat} {bs : List Byte} {b : Byte} (h : bs[3 - k]? = some b) :
    s.storeBytes .ctrl k bs = s.writeCtrl b := by
  simp only [State.storeBytes, h]

theorem storeBytes_status_some {k : Nat} {bs : List Byte} {b : Byte} (h : bs[3 - k]? = some b) :
    s.storeBytes .status k bs = s.writeStatus b := by
  simp only [State.storeBytes, h]

/-- A write of CTRL or STATUS that leaves out bits 7:0 has no effect. -/
theorem storeBytes_none {r : PortReg} {k : Nat} {bs : List Byte} (hr : r.alwaysWritable = true)
    (h : bs[3 - k]? = none) : s.storeBytes r k bs = s := by
  cases r with
  | ctrl => simp only [State.storeBytes, h]
  | status => simp only [State.storeBytes, h]
  | _ => cases hr

/-- The effects that stored bytes can have. -/
theorem storeBytes_cases (s : State) (r : PortReg) (k : Nat) (bs : List Byte) :
    s.storeBytes r k bs = s ∨ (∃ b, s.storeBytes r k bs = s.writeCtrl b) ∨
      (∃ b, s.storeBytes r k bs = s.writeStatus b) ∨
      (r.alwaysWritable = false ∧ ∃ v, s.storeBytes r k bs = s.setPort r v) := by
  by_cases hctrl : r = .ctrl
  · subst hctrl
    cases h : bs[3 - k]? with
    | none => exact .inl (storeBytes_none rfl h)
    | some b => exact .inr (.inl ⟨b, storeBytes_ctrl_some h⟩)
  · by_cases hstatus : r = .status
    · subst hstatus
      cases h : bs[3 - k]? with
      | none => exact .inl (storeBytes_none rfl h)
      | some b => exact .inr (.inr (.inl ⟨b, storeBytes_status_some h⟩))
    · exact .inr (.inr (.inr ⟨alwaysWritable_eq_false hctrl hstatus, _, storeBytes_data hctrl hstatus k bs⟩))

/-- The byte of a datum with its bits 7:0, in a write of a word or of a byte. -/
theorem dataBytes_last {n : Nat} {v : Word} (h : 0 < n) : (dataBytes n v)[n - 1]? = some (v.setWidth 8) := by
  have hexp : n - 1 - (n - 1) = 0 := by omega
  have hbyte : byteAt v.toNat n (n - 1) = v.setWidth 8 := by
    rw [byteAt, hexp, pow_zero, Nat.div_one, BitVec.ofNat_toNat]
  rw [dataBytes, intToBytes_getElem? (by omega), hbyte]

/-! ## One step as one move -/

/-- What one move can do to a state: the cases of `act`, with the guards that let each happen. -/
inductive Move (s : State) : Action → State → Prop
  /-- rst_n falls. -/
  | fall : Move s .resetLow { s with rst := .held }
  /-- rst_n rises. -/
  | rise : s.rst = .held → Move s .resetHigh (State.reset.withSched s.sched)
  /-- Nothing: an idle or held sequencer, an edge that is none. -/
  | nothing (m : Action) : Move s m s
  /-- The port answers and does nothing else: a read, a refused write, a transaction that a held line loses. -/
  | answered (m : Action) (r : Response) : Move s m (s.answer r)
  /-- The running command takes its next step. -/
  | sequencer {t : State} : s.rst = .released → s.phase = .run → exec s.op s = .next t → Move s .sequencer t
  /-- A word arrives at CMD. -/
  | issue {t : State} (a : Offset) (n : Nat) (c : Word) : s.rst = .released → s.phase = .idle →
      issueCommand c (s.answer (.write .okay)) = .next t → Move s (.write a n c) t
  /-- Bytes arrive at another register; while a command runs, at CTRL or STATUS only. -/
  | store (a : Offset) (n : Nat) (v : Word) (r : PortReg) (k : Nat) (bs : List Byte) : s.rst = .released →
      (s.phase = .run → r.alwaysWritable = true) →
      Move s (.write a n v) ((s.answer (.write .okay)).storeBytes r k bs)

theorem hostWrite_move {a : Offset} {n : Nat} {v : Word} (hr : s.rst = .released)
    (h : hostWrite a n v s = .next t) : Move s (.write a n v) t := by
  rcases hostWrite_cases h with ⟨-, rfl⟩ | ⟨k, htarget, hissue⟩ | ⟨r, k, -, htarget, rfl⟩
  · exact .answered _ _
  · obtain ⟨-, -, -, -, hbusy⟩ := writeTarget_some htarget
    have hidle : s.phase = .idle := by
      cases hp : s.phase with
      | idle => rfl
      | run => exact absurd (hbusy hp) (by decide)
    exact .issue a n v hr hidle hissue
  · obtain ⟨-, -, -, -, hbusy⟩ := writeTarget_some htarget
    exact .store a n v r k _ hr hbusy

theorem sequencer_move (h : act .sequencer s = .next t) : Move s .sequencer t := by
  by_cases hr : s.rst = .released
  · cases hp : s.phase with
    | idle =>
      rw [act_sequencer_idle hp] at h
      cases h
      exact .nothing _
    | run =>
      rw [act_sequencer_run hr hp] at h
      exact .sequencer hr hp h
  · rw [act_sequencer_held hr] at h
    cases h
    exact .nothing _

theorem resetHigh_move (s : State) : Move s .resetHigh s.resetHigh := by
  unfold State.resetHigh
  split
  · exact .rise ‹_›
  · exact .nothing _

/-- Every move that answers a next state is one of the cases of `Move`. -/
theorem act_move {m : Action} (h : act m s = .next t) : Move s m t := by
  cases m with
  | sequencer => exact sequencer_move h
  | resetLow =>
    cases h
    exact .fall
  | resetHigh =>
    cases h
    exact resetHigh_move s
  | read a n =>
    cases hr : s.rst with
    | released =>
      obtain ⟨resp, data, hread⟩ := hostRead_frame s a n
      rw [act_read hr, hread] at h
      cases h
      exact .answered _ _
    | held =>
      rw [(act_host_held hr).1] at h
      cases h
      exact .answered _ _
    | unset => simp [act, hr] at h
  | write a n v =>
    cases hr : s.rst with
    | released =>
      rw [act_write hr] at h
      exact hostWrite_move hr h
    | held =>
      rw [(act_host_held hr).2] at h
      cases h
      exact .answered _ _
    | unset => simp [act, hr] at h

/-- The move that a step takes, and the schedule that it leaves. -/
theorem step_move (h : step s = .next t) :
    ∃ m rest, (s.sched = m :: rest ∨ s.sched = [] ∧ m = .sequencer) ∧ Move (s.withSched rest) m t := by
  cases hs : s.sched with
  | nil =>
    have hsame : s.withSched [] = s := by rw [State.withSched, ← hs]
    rw [step_nil hs] at h
    exact ⟨.sequencer, [], .inr ⟨rfl, rfl⟩, hsame.symm ▸ act_move h⟩
  | cons m rest =>
    rw [step_cons hs] at h
    exact ⟨m, rest, .inl rfl, act_move h⟩

end Sys2Proof.Machine
end

section
/-! PROOFS. Every step keeps the sequencer's invariant. The loop invariant of each command holds at its init and is
kept by its iteration; a host write changes nothing of a running command but the abort request; every other move
leaves the core idle or changes none of what the invariant reads. -/

namespace Sys2Proof.Machine

/-! ## Residues -/

theorem one_lt_modulus : 1 < Config.N := by decide

theorem mulmod_mod (a b : Nat) : mulmod (a % Config.N) (b % Config.N) = a * b % Config.N :=
  (Nat.mul_mod a b Config.N).symm

theorem sqrmod_pow_mod (x e : Nat) : sqrmod (x ^ e % Config.N) = x ^ (2 * e) % Config.N := by
  rw [sqrmod, ← Nat.mul_mod, ← pow_add, two_mul]

theorem mulmod_pow_mod (x e : Nat) : mulmod (x ^ e % Config.N) x = x ^ (e + 1) % Config.N := by
  rw [mulmod, Nat.mod_mul_mod, pow_succ]

/-! ## The divider step -/

/-- The remainder of the divider step is that of the doubled remainder (spec/43_prove.md R180). -/
theorem divstep_snd (r l : Nat) : (divstep r l).2 = 2 * r % l := Nat.mod_eq_sub_div_mul.symm

/-- The quotient of 2^(i+1) is twice that of 2^i plus the bit of the divider step. -/
theorem two_pow_succ_div (i l : Nat) (hl : 0 < l) :
    2 ^ (i + 1) / l = 2 * (2 ^ i / l) + (divstep (2 ^ i % l) l).1 := by
  have hsplit : 2 ^ (i + 1) = 2 * (2 ^ i % l) + l * (2 * (2 ^ i / l)) := by
    have h := Nat.div_add_mod (2 ^ i) l
    rw [pow_succ']
    nlinarith
  rw [hsplit, Nat.add_mul_div_left _ _ hl, add_comm]
  rfl

theorem divstep_bit_lt_two {r l : Nat} (h : r < l) : (divstep r l).1 < 2 := by
  show 2 * r / l < 2
  rw [Nat.div_lt_iff_lt_mul (by omega)]
  omega

/-! ## The loops -/

theorem iter_succ_of_lt {k m : Nat} (hk : k < m) (hm : m < 2 ^ 64) : (k + 1) % 2 ^ 64 = k + 1 :=
  Nat.mod_eq_of_lt (by omega)

theorem bitlen_toNat_le {w : Nat} (e : BitVec w) : bitlen e.toNat ≤ w := bitlen_le_iff.mpr e.isLt

theorem modexp_step {rd rs1 rs2 : WReg} {n : Snap} {p : Loop} {iter : Nat}
    (h : loopInvariant (.modexp rd rs1 rs2) n p iter) (hd : (modexpCommand rd rs1 rs2).done n p = false) :
    loopInvariant (.modexp rd rs1 rs2) n (modexpStep n p) ((iter + 1) % 2 ^ 64) := by
  obtain ⟨hbase, hj, rfl, hresult, hsq⟩ := h
  have hne : p.j ≠ bitlen n.rs2.toNat := by simpa [modexpCommand] using hd
  have hlen := bitlen_toNat_le n.rs2
  refine ⟨hbase, show p.j + 1 ≤ _ by omega, iter_succ_of_lt (lt_of_le_of_ne hj hne) (by omega), ?_, ?_⟩
  · show (if n.rs2.getLsbD p.j then mulmod p.result p.sq else p.result) = _
    have hbit : n.rs2.toNat % 2 ^ (p.j + 1) = n.rs2.toNat % 2 ^ p.j + 2 ^ p.j * (n.rs2.getLsbD p.j).toNat := by
      rw [Nat.mod_pow_succ, ← BitVec.testBit_toNat, Nat.toNat_testBit]
    show _ = n.rs1.toNat ^ (n.rs2.toNat % 2 ^ (p.j + 1)) % Config.N
    rw [hbit, hresult, hsq]
    cases n.rs2.getLsbD p.j with
    | false => simp
    | true => simp [mulmod_mod, pow_add]
  · show sqrmod p.sq = n.rs1.toNat ^ 2 ^ (p.j + 1) % Config.N
    rw [hsq, sqrmod_pow_mod, pow_succ']

theorem eval_step {rd rs1 : WReg} {n : Snap} {p : Loop} {iter : Nat} (h : loopInvariant (.eval rd rs1) n p iter)
    (hd : (evalCommand rd rs1).done n p = false) :
    loopInvariant (.eval rd rs1) n (evalStep n p) ((iter + 1) % 2 ^ 64) := by
  obtain ⟨hbase, ht, hi, rfl, hacc⟩ := h
  have hne : p.i ≠ n.t.toNat := by simpa [evalCommand] using hd
  refine ⟨hbase, ht, show p.i + 1 ≤ _ by omega, iter_succ_of_lt (lt_of_le_of_ne hi hne) n.t.isLt, ?_⟩
  show sqrmod p.acc = n.rs1.toNat ^ 2 ^ (p.i + 1) % Config.N
  rw [hacc, sqrmod_pow_mod, pow_succ']

theorem prove_step {rd rs1 : WReg} {n : Snap} {p : Loop} {iter : Nat} (h : loopInvariant (.prove rd rs1) n p iter)
    (hd : (proveCommand rd rs1).done n p = false) :
    loopInvariant (.prove rd rs1) n (proveStep n p) ((iter + 1) % 2 ^ 64) := by
  obtain ⟨hbase, ht, hl, hi, rfl, hrem, hproof⟩ := h
  have hne : p.i ≠ n.t.toNat := by simpa [proveCommand] using hd
  have hpos : 0 < n.l.toNat := by omega
  refine ⟨hbase, ht, hl, show p.i + 1 ≤ _ by omega, iter_succ_of_lt (lt_of_le_of_ne hi hne) n.t.isLt, ?_, ?_⟩
  · show (divstep p.remainder n.l.toNat).2 = 2 ^ (p.i + 1) % n.l.toNat
    rw [divstep_snd, hrem, Nat.mul_mod_mod, pow_succ']
  · show (if (divstep p.remainder n.l.toNat).1 = 1 then _ else _) = n.rs1.toNat ^ (2 ^ (p.i + 1) / n.l.toNat) % _
    have hbit := divstep_bit_lt_two (Nat.mod_lt (2 ^ p.i) hpos)
    rw [hrem, hproof, sqrmod_pow_mod, two_pow_succ_div _ _ hpos]
    split
    · rename_i hone
      rw [hone, mulmod_pow_mod]
    · rename_i hone
      rw [show (divstep (2 ^ p.i % n.l.toNat) n.l.toNat).1 = 0 by omega, add_zero]

/-! ## The search -/

/-- The largest candidate a search can reach is accepted (spec/42_hash_to_prime.md R159). -/
theorem isPrimeCore_searchBound : isPrimeCore (2 ^ 256 + 297) = true := by decide +kernel

theorem or_one_eq (c : Nat) : c ||| 1 = 2 * (c / 2) + 1 := by
  have hdiv : (c ||| 1) / 2 = c / 2 := by rw [Nat.or_div_two]; simp
  have hmod : (c ||| 1) % 2 = 1 := by simp
  omega

theorem searchInit_cand (c : Nat) : (searchInit c).cand = c ||| 1 := by
  rw [or_one_eq, searchInit]
  dsimp only
  split <;> omega

theorem search_init {c : Nat} (h : c < 2 ^ 256) : loopInvariant.searchInvariant c (searchInit c) 0 := by
  have hcand : (searchInit c).cand = 2 * (c / 2) + 1 := by rw [searchInit_cand, or_one_eq]
  refine ⟨by omega, by omega, by omega, fun m hm hlt hodd => absurd hodd (by omega), nofun, ?_⟩
  rw [searchInit_cand, Nat.sub_self]
  rfl

theorem search_accepts {c iter : Nat} {p : Loop} (h : loopInvariant.searchInvariant c p iter)
    (hf : p.found = false) (hp : isPrimeCore p.cand = true) :
    loopInvariant.searchInvariant c { p with found := true } ((iter + 1) % 2 ^ 64) := by
  obtain ⟨hodd, hle, hbound, hrejected, -, hiter⟩ := h
  refine ⟨hodd, hle, hbound, hrejected, fun _ => hp, ?_⟩
  rw [hiter, hf]
  simp

/-- A rejected candidate is below the bound, since the bound itself is accepted. -/
theorem search_rejects {c iter : Nat} {p : Loop} (h : loopInvariant.searchInvariant c p iter)
    (hf : p.found = false) (hp : isPrimeCore p.cand = false) :
    loopInvariant.searchInvariant c { p with cand := p.cand + 2 } ((iter + 1) % 2 ^ 64) := by
  obtain ⟨hodd, hle, hbound, hrejected, -, hiter⟩ := h
  have hne : p.cand ≠ 2 ^ 256 + 297 := by
    intro heq
    rw [heq, isPrimeCore_searchBound] at hp
    cases hp
  refine ⟨show (p.cand + 2) % 2 = 1 by omega, show c ≤ p.cand + 2 by omega,
    show p.cand + 2 ≤ 2 ^ 256 + 297 by omega, fun m hm hlt hmodd => ?_, fun hfound => ?_, ?_⟩
  · replace hlt : m < p.cand + 2 := hlt
    rcases lt_or_eq_of_le (show m ≤ p.cand by omega) with hbefore | rfl
    · exact hrejected m hm hbefore hmodd
    · exact hp
  · exact absurd (hfound.symm.trans hf) (by decide)
  · show (iter + 1) % 2 ^ 64 = ((p.cand + 2 - (c ||| 1)) / 2 + if p.found then 1 else 0) % 2 ^ 64
    have hcount : (p.cand + 2 - (c ||| 1)) / 2 = (p.cand - (c ||| 1)) / 2 + 1 := by
      rw [or_one_eq]
      omega
    rw [hcount, hiter, hf]
    simp

theorem search_step {c iter : Nat} {n : Snap} {p : Loop} (h : loopInvariant.searchInvariant c p iter)
    (hf : p.found = false) : loopInvariant.searchInvariant c (searchStep n p) ((iter + 1) % 2 ^ 64) := by
  rw [searchStep]
  split
  · exact search_accepts h hf ‹_›
  · exact search_rejects h hf (Bool.eq_false_iff.mpr ‹_›)

theorem prefixCandidate_lt (v : Nat) : prefixCandidate v < 2 ^ 256 := by
  have hlen : ((intBytes v).take Config.seedPrefix).length ≤ 32 := List.length_take_le _ _
  calc prefixCandidate v < 256 ^ ((intBytes v).take Config.seedPrefix).length := bytesToInt_lt _
    _ ≤ 256 ^ 32 := Nat.pow_le_pow_right (by decide) hlen
    _ = 2 ^ 256 := by norm_num

/-! ## The loop invariant of every command -/

/-- Where the checks pass, the loop invariant holds at the init, with ITER 0. -/
theorem loopInvariant_init {i : Instr} {s : State} (h : (commandOf i).check s = .ok) :
    loopInvariant i ((commandOf i).snap s) ((commandOf i).init ((commandOf i).snap s)) 0 := by
  cases i with
  | sqrmod rd rs1 => exact ⟨rfl, requireResidue_eq_ok.mp h⟩
  | mulmod rd rs1 rs2 =>
    obtain ⟨h1, h2⟩ := firstFailure_pair_eq_ok.mp h
    exact ⟨rfl, requireResidue_eq_ok.mp h1, requireResidue_eq_ok.mp h2⟩
  | modexp rd rs1 rs2 =>
    have hbase := requireResidue_eq_ok.mp h
    refine ⟨hbase, Nat.zero_le _, rfl, ?_, ?_⟩
    · show 1 = (s.wreg rs1).toNat ^ ((s.wreg rs2).toNat % 2 ^ 0) % Config.N
      rw [pow_zero, Nat.mod_one, pow_zero, Nat.mod_eq_of_lt one_lt_modulus]
    · show (s.wreg rs1).toNat = (s.wreg rs1).toNat ^ 2 ^ 0 % Config.N
      rw [pow_zero, pow_one, Nat.mod_eq_of_lt hbase]
  | reduce rd rs1 => rfl
  | eval rd rs1 =>
    obtain ⟨h1, h2⟩ := firstFailure_pair_eq_ok.mp h
    have hbase := requireResidue_eq_ok.mp h2
    refine ⟨hbase, requireIterations_eq_ok.mp h1, Nat.zero_le _, rfl, ?_⟩
    show (s.wreg rs1).toNat = (s.wreg rs1).toNat ^ 2 ^ 0 % Config.N
    rw [pow_zero, pow_one, Nat.mod_eq_of_lt hbase]
  | prove rd rs1 =>
    obtain ⟨h1, h2, h3⟩ := firstFailure_triple_eq_ok.mp h
    have hl := requireDivisor_eq_ok.mp h2
    refine ⟨requireResidue_eq_ok.mp h3, requireIterations_eq_ok.mp h1, hl, Nat.zero_le _, rfl, ?_, ?_⟩
    · show 1 = 2 ^ 0 % s.l.toNat
      rw [pow_zero, Nat.mod_eq_of_lt hl]
    · show 1 = (s.wreg rs1).toNat ^ (2 ^ 0 / s.l.toNat) % Config.N
      rw [pow_zero, Nat.div_eq_of_lt hl, pow_zero, Nat.mod_eq_of_lt one_lt_modulus]
  | h2py rs1 => exact search_init (prefixCandidate_lt _)
  | h2ps => exact search_init s.seed.isLt
  | ptest => rfl

/-- An iteration keeps the loop invariant, with one more in ITER. -/
theorem loopInvariant_step {i : Instr} {n : Snap} {p : Loop} {iter : Nat} {f : Snap → Loop → Loop}
    (h : loopInvariant i n p iter) (hd : (commandOf i).done n p = false) (hf : (commandOf i).iterate = some f) :
    loopInvariant i n (f n p) ((iter + 1) % 2 ^ 64) := by
  cases i with
  | modexp rd rs1 rs2 =>
    cases hf
    exact modexp_step h hd
  | eval rd rs1 =>
    cases hf
    exact eval_step h hd
  | prove rd rs1 =>
    cases hf
    exact prove_step h hd
  | h2py rs1 =>
    cases hf
    exact search_step h hd
  | h2ps =>
    cases hf
    exact search_step h hd
  | _ => cases hf

/-- A command without an iteration step has its loop finished from its accept on (spec/40_modarith.md R111). -/
theorem done_of_iterate_none {i : Instr} (h : (commandOf i).iterate = none) (n : Snap) (p : Loop) :
    (commandOf i).done n p = true := by
  cases i with
  | modexp | eval | prove | h2py | h2ps => cases h
  | _ => rfl

/-! ## The invariant through the updates of the state -/

variable {s t : State}

theorem Inv_of_idle (hr : s.rst ≠ .unset) (he : s.err ≠ .einternal) (hp : s.phase = .idle)
    (ha : s.abortPending = false) : s.Inv :=
  ⟨hr, he, fun _ => ha, fun hrun => absurd (hp.symm.trans hrun) (by decide)⟩

theorem Inv_reset : State.reset.Inv := Inv_of_idle (by decide) (by decide) rfl rfl

/-- The invariant reads only the reset line, the sequencer, ERR, CMD, ITER, DONE and what the latches were taken
from. -/
theorem State.Inv.update (h : s.Inv) {ie pie done prog abort : Bool} {rst : ResetLine} {sched : List Action}
    {resp : Response} (hr : rst ≠ .unset) (hdone : s.phase = .run → done = false)
    (habort : s.phase = .idle → abort = false) :
    State.Inv { s with ie := ie, pie := pie, done := done, prog := prog, abortPending := abort, rst := rst,
                       sched := sched, resp := resp } := by
  obtain ⟨-, herr, -, hrun⟩ := h
  refine ⟨hr, herr, habort, fun hp => ?_⟩
  obtain ⟨-, hok, hcmd, hsnap, hdl, hloop⟩ := hrun hp
  refine ⟨hdone hp, hok, hcmd, hsnap.trans (snap_congr s.op ?_ ?_ ?_ ?_).symm, hdl, hloop⟩ <;> rfl

theorem State.Inv.not_unset (h : s.Inv) : s.rst ≠ .unset := h.1

theorem State.Inv.err_ne (h : s.Inv) : s.err ≠ .einternal := h.2.1

theorem State.Inv.done_of_run (h : s.Inv) (hp : s.phase = .run) : s.done = false := by
  obtain ⟨-, -, -, hrun⟩ := h
  exact (hrun hp).1

theorem State.Inv.abort_of_idle (h : s.Inv) (hp : s.phase = .idle) : s.abortPending = false := by
  obtain ⟨-, -, hidle, -⟩ := h
  exact hidle hp

theorem State.Inv.withSched (h : s.Inv) (rest : List Action) : (s.withSched rest).Inv :=
  h.update h.not_unset h.done_of_run h.abort_of_idle

theorem State.Inv.answer (h : s.Inv) (r : Response) : (s.answer r).Inv :=
  h.update h.not_unset h.done_of_run h.abort_of_idle

/-- CTRL.ABORT is taken only while a command runs (spec/10_state.md R37). -/
theorem State.Inv.writeCtrl (h : s.Inv) (b : Byte) : (s.writeCtrl b).Inv :=
  h.update h.not_unset h.done_of_run fun hp => by simp [h.abort_of_idle hp, State.busy, hp]

theorem State.Inv.writeStatus (h : s.Inv) (b : Byte) : (s.writeStatus b).Inv :=
  h.update h.not_unset (fun hp => by simp [h.done_of_run hp]) h.abort_of_idle

theorem State.Inv.setPort (h : s.Inv) (hp : s.phase = .idle) (r : PortReg) (v : Nat) : (s.setPort r v).Inv := by
  obtain ⟨w, t, l, seed, interval, hframe⟩ := setPort_frame s r v
  rw [hframe]
  exact Inv_of_idle h.not_unset h.err_ne hp (h.abort_of_idle hp)

theorem State.Inv.storeBytes (h : s.Inv) {r : PortReg} (hbusy : s.phase = .run → r.alwaysWritable = true) (k : Nat)
    (bs : List Byte) : (s.storeBytes r k bs).Inv := by
  rcases storeBytes_cases s r k bs with heq | ⟨b, heq⟩ | ⟨b, heq⟩ | ⟨hr, v, heq⟩ <;> rw [heq]
  · exact h
  · exact h.writeCtrl b
  · exact h.writeStatus b
  · cases hp : s.phase with
    | idle => exact h.setPort hp r v
    | run => exact absurd (hr.symm.trans (hbusy hp)) (by decide)

theorem Inv_complete {e : ErrCode} (hr : s.rst ≠ .unset) (he : e ≠ .einternal) : (s.complete e).Inv :=
  Inv_of_idle hr he rfl rfl

/-! ## The invariant through a command's steps -/

theorem State.Inv.accept (hr : s.rst ≠ .unset) (i : Instr) : (s.accept i (commandOf i)).Inv := by
  by_cases hc : (commandOf i).check s = .ok
  · rw [accept_of_check_ok hc]
    refine ⟨hr, ?_, fun hp => absurd hp (by simp), fun _ => ⟨rfl, rfl, rfl, ?_, rfl, ?_⟩⟩
    · simp
    · exact snap_congr i rfl rfl rfl rfl
    · have hcheck : (commandOf i).check (s.latchCommand (encode i)) = .ok := by rw [check_latchCommand, hc]
      exact loopInvariant_init hcheck
  · rw [accept_of_check_ne hc]
    exact Inv_complete hr (check_ne_einternal i s)

theorem State.Inv.commitStep (h : s.Inv) (i : Instr) : (s.commitStep (commandOf i)).Inv := by
  obtain ⟨w, l, rem, prime, hframe⟩ := commit_frame i s.snap s.loop s
  rw [State.commitStep, hframe]
  exact Inv_complete h.not_unset (by decide)

theorem State.Inv.iterateStep (h : s.Inv) (hp : s.phase = .run) (hd : s.doneLoop = false) :
    (s.iterateStep (commandOf s.op)).Inv := by
  obtain ⟨hr, herr, -, hrun⟩ := h
  obtain ⟨hdone, hok, hcmd, hsnap, hdl, hloop⟩ := hrun hp
  have hrunning : (commandOf s.op).done s.snap s.loop = false := hdl.symm.trans hd
  cases hf : (commandOf s.op).iterate with
  | none => exact absurd (hrunning.symm.trans (done_of_iterate_none hf _ _)) (by decide)
  | some f =>
    rw [iterateStep_of_some hf]
    refine ⟨hr, herr, fun hidle => absurd (hp.symm.trans hidle) (by decide), fun _ => ⟨hdone, hok, hcmd, ?_, rfl, ?_⟩⟩
    · refine hsnap.trans (snap_congr s.op ?_ ?_ ?_ ?_).symm <;> rfl
    · have hnext := loopInvariant_step hloop hrunning hf
      simpa [BitVec.toNat_add] using hnext

theorem State.Inv.exec_op (h : s.Inv) (hp : s.phase = .run) (hexec : exec s.op s = .next t) : t.Inv := by
  rcases exec_cases hexec with ⟨hidle, -⟩ | ⟨hidle, -⟩ | ⟨-, -, rfl⟩ | ⟨-, -, -, rfl⟩ | ⟨-, -, hd, rfl⟩
  · exact absurd (hp.symm.trans hidle) (by decide)
  · exact absurd (hp.symm.trans hidle) (by decide)
  · exact Inv_complete h.not_unset (by decide)
  · exact h.commitStep s.op
  · exact h.iterateStep hp hd

theorem State.Inv.issueCommand (h : s.Inv) (hp : s.phase = .idle) {c : Word}
    (hissue : issueCommand c s = .next t) : t.Inv := by
  rcases issueCommand_cases hissue with ⟨i, -, hexec⟩ | ⟨-, -, rfl⟩
  · rw [exec_idle hp] at hexec
    cases hexec
    exact State.Inv.accept h.not_unset i
  · exact Inv_complete h.not_unset (by decide)

theorem State.Inv.move {m : Action} (h : s.Inv) (hmove : Move s m t) : t.Inv := by
  cases hmove with
  | fall => exact h.update (by decide) h.done_of_run h.abort_of_idle
  | rise => exact Inv_reset.withSched _
  | nothing => exact h
  | answered _ r => exact h.answer r
  | sequencer _ hp hexec => exact h.exec_op hp hexec
  | issue _ _ _ _ hp hissue => exact (h.answer (.write .okay)).issueCommand hp hissue
  | store _ _ _ r k bs _ hbusy => exact (h.answer (.write .okay)).storeBytes hbusy k bs

/-- Settles O47: each move that a step can take keeps the invariant; for a sequencer step the loop invariant of the
running command moves on with its loop. -/
theorem stepKeepsTheInvariant : Obligations.StepKeepsTheInvariant := by
  intro s t h hstep
  obtain ⟨m, rest, -, hmove⟩ := step_move hstep
  exact (h.withSched rest).move hmove

end Sys2Proof.Machine
end

section
/-! PROOFS. Which words the decoder takes: a word that matches a row of the opcode map is the word of the command
the row builds, and a word that no case of spec/30_encoding.md R95 calls ILLEGAL is the word of some command. The
check table of spec/60_exceptions.md R202 is then the check of the decoded command. -/

namespace Sys2Proof

/-! ## From a row of the opcode map to the word -/

/-- A register field read from a word and put back is the word under the field's mask. -/
theorem place_toReg_extract (c : Word) (k : Nat) : place (toReg (c.extractLsb' k 3)) k = c &&& (7#32 <<< k) := by
  apply BitVec.eq_of_getLsbD_eq
  intro j hj
  have hmask : (7#32).getLsbD (j - k) = decide (j - k < 3) := by
    have hseven : Nat.testBit 7 (j - k) = decide (j - k < 3) := Nat.testBit_two_pow_sub_one 3 (j - k)
    rw [BitVec.getLsbD_ofNat, hseven, decide_eq_true (show j - k < 32 by omega), Bool.true_and]
  simp only [place, toReg, BitVec.getLsbD_shiftLeft, BitVec.getLsbD_and, BitVec.ofNat_toNat,
    BitVec.getLsbD_setWidth, BitVec.getLsbD_extractLsb', hmask]
  rcases Nat.lt_or_ge j k with hlow | hhigh
  · simp [hlow]
  · have hbelow : j - k < 32 := by omega
    simp [hj, hbelow, Nat.not_lt.mpr hhigh, Nat.add_sub_cancel' hhigh, Bool.and_comm]

theorem decode_ok_row {c : Word} {i : Instr} (h : decode c = .ok i) :
    ∃ r ∈ opcodeMap, c &&& r.mask = r.value ∧ r.build (Fields.ofWord c) = i := by
  unfold decode at h
  split at h
  · rename_i r hr
    injection h with h
    exact ⟨r, List.mem_of_find?_eq_some hr, by simpa [OpcodeRow.matches] using List.find?_some hr, h⟩
  · cases h

/-- The mask of a row and the masks of the fields it reads cover the word. -/
theorem encode_build_of_matches {c : Word} {r : OpcodeRow} (hr : r ∈ opcodeMap) (h : c &&& r.mask = r.value) :
    encode (r.build (Fields.ofWord c)) = c := by
  have hfield := place_toReg_extract c
  have hjoin (a b : Word) : c &&& a ||| c &&& b = c &&& (a ||| b) := BitVec.and_or_distrib_left.symm
  have hall : c &&& 0xFFFFFFFF#32 = c := BitVec.and_allOnes
  simp only [opcodeMap, List.mem_cons, List.not_mem_nil, or_false] at hr
  rcases hr with rfl | rfl | rfl | rfl | rfl | rfl | rfl | rfl | rfl
  case inr.inr.inr.inr.inr.inr.inr.inl => exact h.symm.trans hall
  case inr.inr.inr.inr.inr.inr.inr.inr => exact h.symm.trans hall
  all_goals
    dsimp only at h
    simp only [encode, Fields.ofWord, hfield, ← h, hjoin]
    exact hall

theorem encode_of_decode {c : Word} {i : Instr} (h : decode c = .ok i) : encode i = c := by
  obtain ⟨r, hr, hmatch, rfl⟩ := decode_ok_row h
  exact encode_build_of_matches hr hmatch

/-! ## From the command to its word -/

/-- The bits of a command's word outside its register fields: the opcode, and for H2PS the mode bit
(spec/30_encoding.md R93). -/
def Instr.opcodeWord : Instr → Nat
  | .sqrmod _ _ => 0x01
  | .mulmod _ _ _ => 0x02
  | .modexp _ _ _ => 0x03
  | .reduce _ _ => 0x04
  | .eval _ _ => 0x08
  | .prove _ _ => 0x09
  | .h2py _ => 0x10
  | .h2ps => 0x8010
  | .ptest => 0x11

/-- The register in a command's rs1 field, which is 0 where the class has none (spec/30_encoding.md R92). -/
def Instr.source1 : Instr → WReg
  | .sqrmod _ a | .reduce _ a | .eval _ a | .prove _ a | .h2py a => a
  | .mulmod _ a _ | .modexp _ a _ => a
  | .h2ps | .ptest => 0

/-- The register in a command's rs2 field, which is 0 where the class has none (spec/30_encoding.md R92). -/
def Instr.source2 : Instr → WReg
  | .mulmod _ _ b | .modexp _ _ b => b
  | .sqrmod _ _ | .reduce _ _ | .eval _ _ | .prove _ _ | .h2py _ | .h2ps | .ptest => 0

/-- A command's word as the sum of its fields at their places (spec/30_encoding.md R91). -/
theorem encode_toNat (i : Instr) :
    (encode i).toNat = i.opcodeWord + 2 ^ 6 * ((Machine.destination i).getD 0).val + 2 ^ 9 * i.source1.val +
      2 ^ 12 * i.source2.val := by
  cases i with
  | h2ps | ptest => decide
  | h2py a => revert a; decide +kernel
  | sqrmod d a | reduce d a | eval d a | prove d a => revert d a; decide +kernel
  | mulmod d a b | modexp d a b => revert d a b; decide +kernel

theorem decode_encode (i : Instr) : decode (encode i) = .ok i := by
  cases i with
  | h2ps | ptest => decide
  | h2py a => revert a; decide +kernel
  | sqrmod d a | reduce d a | eval d a | prove d a => revert d a; decide +kernel
  | mulmod d a b | modexp d a b => revert d a b; decide +kernel

theorem encode_legal (i : Instr) : ¬ Machine.illegalWord (encode i) := by
  cases i with
  | h2ps | ptest => decide
  | h2py a => revert a; decide +kernel
  | sqrmod d a | reduce d a | eval d a | prove d a => revert d a; decide +kernel
  | mulmod d a b | modexp d a b => revert d a b; decide +kernel

theorem fieldReg_encode (i : Instr) :
    Machine.fieldReg (encode i) 9 = i.source1 ∧ Machine.fieldReg (encode i) 12 = i.source2 := by
  have hsum := encode_toNat i
  have hrd := ((Machine.destination i).getD 0).isLt
  have hs1 := i.source1.isLt
  have hs2 := i.source2.isLt
  have hopc : i.opcodeWord < 64 ∨ i.opcodeWord = 0x8010 := by cases i <;> simp [Instr.opcodeWord]
  constructor <;> apply Fin.ext <;> simp only [Machine.fieldReg] <;> omega

theorem opcode_encode (i : Instr) : (encode i).toNat % 64 = i.opcodeWord % 64 := by
  have hsum := encode_toNat i
  omega

/-! ## The illegal words -/

/-- The command that the fields of a legal word name. -/
def legalCommand (c : Word) : Instr :=
  match c.toNat % 64 with
  | 0x01 => .sqrmod (Machine.fieldReg c 6) (Machine.fieldReg c 9)
  | 0x02 => .mulmod (Machine.fieldReg c 6) (Machine.fieldReg c 9) (Machine.fieldReg c 12)
  | 0x03 => .modexp (Machine.fieldReg c 6) (Machine.fieldReg c 9) (Machine.fieldReg c 12)
  | 0x04 => .reduce (Machine.fieldReg c 6) (Machine.fieldReg c 9)
  | 0x08 => .eval (Machine.fieldReg c 6) (Machine.fieldReg c 9)
  | 0x09 => .prove (Machine.fieldReg c 6) (Machine.fieldReg c 9)
  | 0x10 => if c.toNat / 2 ^ 15 % 2 = 0 then .h2py (Machine.fieldReg c 9) else .h2ps
  | _ => .ptest

/-- Every word that no case of spec/30_encoding.md R95 calls ILLEGAL is a command's. -/
theorem encode_legalCommand {c : Word} (h : ¬ Machine.illegalWord c) : encode (legalCommand c) = c := by
  have hopc : c.toNat % 64 ∈ [0x01, 0x02, 0x03, 0x04, 0x08, 0x09, 0x10, 0x11] := by
    by_contra hreserved
    exact h (.inl hreserved)
  simp only [Machine.illegalWord, List.mem_cons, List.not_mem_nil, or_false] at h hopc
  have hsum : c.toNat = c.toNat % 64 + 2 ^ 6 * (c.toNat / 2 ^ 6 % 8) + 2 ^ 9 * (c.toNat / 2 ^ 9 % 8) +
      2 ^ 12 * (c.toNat / 2 ^ 12 % 8) + 2 ^ 15 * (c.toNat / 2 ^ 15 % 2) + 2 ^ 16 * (c.toNat / 2 ^ 16) := by omega
  apply BitVec.eq_of_toNat_eq
  rw [encode_toNat]
  rcases hopc with hc | hc | hc | hc | hc | hc | hc | hc <;> simp only [legalCommand, hc]
  case inr.inr.inr.inr.inr.inr.inl =>
    split <;>
      simp only [Instr.opcodeWord, Instr.source1, Instr.source2, Machine.destination, Machine.fieldReg,
        Option.getD_none, Fin.val_zero] <;> omega
  all_goals
    simp only [Instr.opcodeWord, Instr.source1, Instr.source2, Machine.destination, Machine.fieldReg,
      Option.getD_some, Option.getD_none, Fin.val_zero]
    omega

theorem decode_of_legal {c : Word} (h : ¬ Machine.illegalWord c) : decode c = .ok (legalCommand c) := by
  rw [← congrArg decode (encode_legalCommand h), decode_encode]

/-! ## The check table -/

namespace Machine

theorem checkWord_illegal {c : Word} {s : State} (h : illegalWord c) : checkWord c s = .eill := if_pos h

/-- The check table on a command's word is the check of the command (spec/60_exceptions.md R202). -/
theorem checkWord_encode (i : Instr) (s : State) : checkWord (encode i) s = (commandOf i).check s := by
  obtain ⟨h1, h2⟩ := fieldReg_encode i
  simp only [checkWord, if_neg (encode_legal i), opcode_encode, h1, h2]
  cases i <;> simp [Instr.opcodeWord, Instr.source1, Instr.source2, commandOf, sqrmodCommand, mulmodCommand,
    modexpCommand, reduceCommand, evalCommand, proveCommand, h2pyCommand, h2psCommand, ptestCommand,
    firstFailure_ite, firstFailure, State.requireResidue, State.requireIterations, State.requireDivisor]

end Machine

end Sys2Proof
end

section
/-! PROOFS. The sequencer's statements: what an accept, an iteration, a cancellation and a commit change, and what
they leave. Each follows from what one execution step can be (`exec_cases`) and from the frame of the part it runs.
-/

namespace Sys2Proof.Machine

variable {s t : State}

/-! ## What a commit writes -/

theorem commit_wreg_other {i : Instr} {q : WReg} (h : destination i ≠ some q) (n : Snap) (p : Loop) (s : State) :
    ((commandOf i).commit n p s).wreg q = s.wreg q := by
  cases i with
  | h2py | h2ps | ptest => rfl
  | sqrmod rd | mulmod rd | modexp rd | reduce rd | eval rd | prove rd =>
    have hne : q ≠ rd := fun heq => h (congrArg some heq.symm)
    exact State.setW_wreg_other s rd q _ hne

theorem commit_rem {i : Instr} {n : Snap} {p : Loop} (h : ((commandOf i).commit n p s).rem ≠ s.rem) :
    ∃ rd rs1, i = .prove rd rs1 := by
  cases i with
  | prove rd rs1 => exact ⟨rd, rs1, rfl⟩
  | _ => exact absurd rfl h

theorem commit_l {i : Instr} {n : Snap} {p : Loop} (h : ((commandOf i).commit n p s).l ≠ s.l) :
    (∃ rs1, i = .h2py rs1) ∨ i = .h2ps := by
  cases i with
  | h2py rs1 => exact .inl ⟨rs1, rfl⟩
  | h2ps => exact .inr rfl
  | _ => exact absurd rfl h

theorem commit_prime {i : Instr} {n : Snap} {p : Loop} (h : ((commandOf i).commit n p s).prime ≠ s.prime) :
    (∃ rs1, i = .h2py rs1) ∨ i = .h2ps ∨ i = .ptest := by
  cases i with
  | h2py rs1 => exact .inl ⟨rs1, rfl⟩
  | h2ps => exact .inr (.inl rfl)
  | ptest => exact .inr (.inr rfl)
  | _ => exact absurd rfl h

/-! ## What one step of a command changes -/

/-- A step of a command is its commit, or it leaves every destination. -/
theorem exec_destinations {i : Instr} (h : exec i s = .next t) :
    (s.phase = .run ∧ s.abortPending = false ∧ s.doneLoop = true ∧ t = s.commitStep (commandOf i)) ∨
      (t.w = s.w ∧ t.l = s.l ∧ t.rem = s.rem ∧ t.prime = s.prime) := by
  rcases exec_cases h with ⟨-, -, rfl⟩ | ⟨-, e, -, -, rfl⟩ | ⟨-, -, rfl⟩ | hcommit | ⟨-, -, -, rfl⟩
  · exact .inr ⟨rfl, rfl, rfl, rfl⟩
  · exact .inr ⟨rfl, rfl, rfl, rfl⟩
  · exact .inr ⟨rfl, rfl, rfl, rfl⟩
  · exact .inl hcommit
  · obtain ⟨p, d, n, g, hframe⟩ := iterateStep_frame s (commandOf i)
    rw [hframe]
    exact .inr ⟨rfl, rfl, rfl, rfl⟩

theorem commitStep_frame (i : Instr) (s : State) :
    ∃ w l rem prime, s.commitStep (commandOf i) =
      { s with w := w, l := l, rem := rem, prime := prime, err := .ok, done := true, phase := .idle,
               abortPending := false } := by
  obtain ⟨w, l, rem, prime, hframe⟩ := commit_frame i s.snap s.loop s
  exact ⟨w, l, rem, prime, by rw [State.commitStep, hframe, State.complete]⟩

/-- A step of a command leaves the registers that only the host writes, the reset line and the model's own fields, and
does not clear PROG. -/
theorem exec_frame {i : Instr} (h : exec i s = .next t) :
    t.t = s.t ∧ t.seed = s.seed ∧ t.progInterval = s.progInterval ∧ t.ie = s.ie ∧ t.pie = s.pie ∧ t.rst = s.rst ∧
      t.sched = s.sched ∧ t.resp = s.resp ∧ (s.prog = true → t.prog = true) := by
  rcases exec_cases h with ⟨-, -, rfl⟩ | ⟨-, e, -, -, rfl⟩ | ⟨-, -, rfl⟩ | ⟨-, -, -, rfl⟩ | ⟨-, -, -, rfl⟩
  · exact ⟨rfl, rfl, rfl, rfl, rfl, rfl, rfl, rfl, id⟩
  · exact ⟨rfl, rfl, rfl, rfl, rfl, rfl, rfl, rfl, id⟩
  · exact ⟨rfl, rfl, rfl, rfl, rfl, rfl, rfl, rfl, id⟩
  · obtain ⟨w, l, rem, prime, hframe⟩ := commitStep_frame i s
    rw [hframe]
    exact ⟨rfl, rfl, rfl, rfl, rfl, rfl, rfl, rfl, id⟩
  · obtain ⟨p, d, n, g, hframe⟩ := iterateStep_frame s (commandOf i)
    rw [hframe]
    exact ⟨rfl, rfl, rfl, rfl, rfl, rfl, rfl, rfl, fun hprog => by simp [hprog]⟩

/-! ## The statements on one command's step -/

/-- Settles O10: the accept runs the checks of the table, then the latches and the init of the command's rule; the
loops of EVAL and PROVE are not finished at once, since their check asks for a T of at least 1. -/
theorem acceptStartsTheCommand : Obligations.AcceptStartsTheCommand := by
  intro i s hp hcheck
  rw [checkWord_encode] at hcheck
  let n := (commandOf i).snap (s.latchCommand (encode i))
  refine ⟨n, (commandOf i).init n, (commandOf i).done n ((commandOf i).init n), ?_, ?_⟩
  · rw [exec_idle hp, accept_of_check_ok hcheck]
    rfl
  · cases i with
    | sqrmod | reduce | ptest => exact ⟨rfl, rfl⟩
    | mulmod => exact ⟨rfl, rfl, rfl⟩
    | modexp => exact ⟨rfl, rfl, rfl, rfl, rfl⟩
    | eval =>
      have ht := requireIterations_eq_ok.mp (firstFailure_pair_eq_ok.mp hcheck).1
      exact ⟨rfl, rfl, rfl, rfl, beq_eq_false_iff_ne.mpr (show 0 ≠ s.t.toNat by omega)⟩
    | prove =>
      have ht := requireIterations_eq_ok.mp (firstFailure_triple_eq_ok.mp hcheck).1
      exact ⟨rfl, rfl, rfl, rfl, rfl, rfl, beq_eq_false_iff_ne.mpr (show 0 ≠ s.t.toNat by omega)⟩
    | h2py => exact ⟨rfl, rfl, rfl⟩
    | h2ps =>
      refine ⟨rfl, rfl, rfl, ?_⟩
      show (searchInit s.seed.toNat).cand = _
      rw [searchInit_cand, or_one_eq]
      omega

theorem progressDue_iff (interval : Word) (iter : BitVec 64) :
    progressDue interval iter = true ↔ interval ≠ 0#32 ∧ iter.toNat % interval.toNat = 0 := by
  simp [progressDue]

/-- Settles O11: a looping command's iteration is its loop step and one `tick`. -/
theorem iterationCountsAndReportsProgress : Obligations.IterationCountsAndReportsProgress := by
  intro i s hp ha hd hloops
  obtain ⟨f, hf⟩ : ∃ f, (commandOf i).iterate = some f := by
    cases i with
    | modexp | eval | prove | h2py | h2ps => exact ⟨_, rfl⟩
    | _ => exact hloops.elim
  refine ⟨_, _, s.prog || progressDue s.progInterval (s.iter + 1#64),
    (exec_iterate hp ha hd).trans (congrArg _ (iterateStep_of_some hf)), ?_⟩
  rw [Bool.or_eq_true, progressDue_iff]

/-- Settles O12: the pending abort is looked at before done_loop. -/
theorem abortCancelsEveryCommand : Obligations.AbortCancelsEveryCommand :=
  fun _ _ hp ha => exec_cancel hp ha

/-- Settles O14: only a commit writes destinations, and each command's commit only its own. -/
theorem commandsWriteOnlyTheirDestinations : Obligations.CommandsWriteOnlyTheirDestinations := by
  intro i s t h
  suffices hdest : (∀ q, destination i ≠ some q → t.wreg q = s.wreg q) ∧
      (t.rem ≠ s.rem → ∃ rd rs1, i = .prove rd rs1) ∧ (t.l ≠ s.l → (∃ rs1, i = .h2py rs1) ∨ i = .h2ps) ∧
      (t.prime ≠ s.prime → (∃ rs1, i = .h2py rs1) ∨ i = .h2ps ∨ i = .ptest) by
    obtain ⟨hw, hrem, hl, hprime⟩ := hdest
    exact ⟨hw, hrem, hl, hprime, exec_frame h⟩
  rcases exec_destinations h with ⟨-, -, -, rfl⟩ | ⟨hw, hl, hrem, hprime⟩
  · exact ⟨fun q hq => commit_wreg_other hq s.snap s.loop s, commit_rem, commit_l, commit_prime⟩
  · exact ⟨fun q _ => by rw [State.wreg, State.wreg, hw], fun hne => absurd hrem hne, fun hne => absurd hl hne,
      fun hne => absurd hprime hne⟩

/-! ## The statements on one step of the machine -/

/-- Settles O6: both moves are the sequencer's, and the core is released and runs. -/
theorem stepRunsTheRunningCommand : Obligations.StepRunsTheRunningCommand := by
  intro s hr hp
  constructor
  · intro hs
    rw [step_nil hs, act_sequencer_run hr hp]
  · intro rest hs
    have hrun : act .sequencer (s.withSched rest) = exec s.op (s.withSched rest) := act_sequencer_run hr hp
    rw [step_cons hs, hrun]
    rfl

/-- Settles O13: of the sequencer's moves only the running command's step can change a destination, and of its
steps only the commit. -/
theorem destinationsChangeOnlyAtCommit : Obligations.DestinationsChangeOnlyAtCommit := by
  intro s t hs hstep hchange
  obtain ⟨m, rest, hm, hmove⟩ := step_move hstep
  have hsequencer : m = .sequencer := by
    rcases hs with hnil | ⟨rest', hcons⟩ <;> rcases hm with hm | ⟨hm, rfl⟩
    · cases hnil.symm.trans hm
    · rfl
    · cases hcons.symm.trans hm
      rfl
    · rfl
  subst hsequencer
  have hkept (hw : t.w = s.w) (hl : t.l = s.l) (hrem : t.rem = s.rem) (hprime : t.prime = s.prime) : False := by
    simp [hw, hl, hrem, hprime] at hchange
  cases hmove with
  | nothing => exact (hkept rfl rfl rfl rfl).elim
  | answered => exact (hkept rfl rfl rfl rfl).elim
  | sequencer _ _ hexec =>
    rcases exec_destinations hexec with ⟨hp, ha, hd, rfl⟩ | ⟨hw, hl, hrem, hprime⟩
    · exact ⟨hp, ha, hd, rfl, rfl, rfl⟩
    · exact (hkept hw hl hrem hprime).elim

/-- Issuing a word writes no destination: a commit needs a running command. -/
theorem issueCommand_prime {c : Word} (hp : s.phase = .idle) (h : issueCommand c s = .next t) :
    t.prime = s.prime := by
  rcases issueCommand_cases h with ⟨i, -, hexec⟩ | ⟨-, -, rfl⟩
  · rcases exec_destinations hexec with ⟨hrun, -⟩ | ⟨-, -, -, hprime⟩
    · cases hp.symm.trans hrun
    · exact hprime
  · rfl

/-- A move that changes PRIME is a commit of the running command, or the end of a reset. -/
theorem move_prime {m : Action} (h : Move s m t) (hne : t.prime ≠ s.prime) :
    (s.phase = .run ∧ s.abortPending = false ∧ s.doneLoop = true ∧ t = s.commitStep (commandOf s.op)) ∨
      (s.rst = .held ∧ m = .resetHigh) := by
  cases h with
  | fall => exact absurd rfl hne
  | rise hr => exact .inr ⟨hr, rfl⟩
  | nothing => exact absurd rfl hne
  | answered => exact absurd rfl hne
  | sequencer _ _ hexec =>
    rcases exec_destinations hexec with hcommit | ⟨-, -, -, hprime⟩
    · exact .inl hcommit
    · exact absurd hprime hne
  | issue _ _ _ _ hp hissue => exact absurd (issueCommand_prime (s := s.answer (.write .okay)) hp hissue) hne
  | store _ _ _ r k bs =>
    obtain ⟨_, _, _, _, _, _, _, _, _, _, hframe⟩ := storeBytes_frame (s.answer (.write .okay)) r k bs
    rw [hframe] at hne
    exact absurd rfl hne

/-- Settles O15: of the moves only a commit and the end of a reset change PRIME, and of the commits only three. -/
theorem primeIsWrittenOnlyByPrimalityCommits : Obligations.PrimeIsWrittenOnlyByPrimalityCommits := by
  refine ⟨fun s t hstep hne => ?_, fun s hp ha hd => ⟨?_, ?_, fun r => ?_⟩⟩
  · obtain ⟨m, rest, hm, hmove⟩ := step_move hstep
    rcases move_prime hmove hne with ⟨hp, ha, hd, rfl⟩ | ⟨hr, rfl⟩
    · have hop : (∃ r, s.op = .h2py r) ∨ s.op = .h2ps ∨ s.op = .ptest := commit_prime hne
      exact .inl ⟨hp, ha, hd, rfl, rfl, by tauto⟩
    · rcases hm with hm | ⟨-, hm⟩
      · exact .inr ⟨hr, rest, hm⟩
      · cases hm
  · exact ⟨_, exec_commit hp ha hd, rfl⟩
  · exact ⟨_, exec_commit hp ha hd, rfl⟩
  · exact ⟨_, exec_commit hp ha hd, rfl⟩

end Sys2Proof.Machine
end

section
/-! PROOFS. The statements on a host transaction: a word written to CMD, the fields of CTRL and STATUS, and ID. The
address map gives the register that an offset hits (`locate_of_covers`); the register's own rule gives the effect.
-/

namespace Sys2Proof.Machine

variable {s : State} {a : Offset} {n : Nat} {v : Word} {rest : List Action}

/-! ## A host write as a step -/

theorem step_write (hr : s.rst = .released) (hs : s.sched = .write a n v :: rest) :
    step s = hostWrite a n v (s.withSched rest) := by
  rw [step_cons hs]
  exact act_write (s := s.withSched rest) hr a n v

/-- A word written to CMD of an idle core is issued (spec/10_state.md R43). -/
theorem step_issue (hr : s.rst = .released) (hp : s.phase = .idle) (hs : s.sched = .write 0x00C#12 4 v :: rest) :
    step s = issueCommand v ((s.withSched rest).answer (.write .okay)) := by
  have htarget : (s.withSched rest).writeTarget 0x00C#12 4 = some (.cmd, 0) :=
    writeTarget_of_locate rfl (locate_of_covers rfl) (fun _ => rfl) rfl
      fun hrun => absurd (hp.symm.trans hrun) (by decide)
  rw [step_write hr hs, hostWrite_cmd htarget]

/-- A write that the port takes to CTRL or STATUS has the effect of its bytes there, whether a command runs or not. -/
theorem step_write_field {r : PortReg} (hr : s.rst = .released) (hs : s.sched = .write a n v :: rest)
    (hfield : r.alwaysWritable = true) (hcovers : r.covers a = true) (hlegal : legalAccess a n = true) :
    step s = .next (State.storeBytes ((s.withSched rest).answer (.write .okay)) r (a.toNat - r.base)
      (dataBytes n v)) := by
  have hkind : r ≠ .cmd ∧ r.readOnly = false := by
    cases r with
    | ctrl | status => exact ⟨nofun, rfl⟩
    | _ => cases hfield
  obtain ⟨hcmd, hro⟩ := hkind
  have htarget : (s.withSched rest).writeTarget a n = some (r, a.toNat - r.base) :=
    writeTarget_of_locate hlegal (locate_of_covers hcovers) (fun h => absurd h hcmd) hro fun _ => hfield
  rw [step_write hr hs, hostWrite_store hcmd htarget]

/-- The last byte of CTRL or STATUS is written by a word at its base or by a byte at its end. -/
theorem step_write_ctrl (hr : s.rst = .released) (hs : s.sched = .write a n v :: rest)
    (h : a = 0x004#12 ∧ n = 4 ∨ a = 0x007#12 ∧ n = 1) :
    step s = .next (((s.withSched rest).answer (.write .okay)).writeCtrl (v.setWidth 8)) := by
  rcases h with ⟨rfl, rfl⟩ | ⟨rfl, rfl⟩ <;>
    exact (step_write_field (r := .ctrl) hr hs rfl rfl rfl).trans
      (congrArg _ (storeBytes_ctrl_some (dataBytes_last (by decide))))

theorem step_write_status (hr : s.rst = .released) (hs : s.sched = .write a n v :: rest)
    (h : a = 0x008#12 ∧ n = 4 ∨ a = 0x00B#12 ∧ n = 1) :
    step s = .next (((s.withSched rest).answer (.write .okay)).writeStatus (v.setWidth 8)) := by
  rcases h with ⟨rfl, rfl⟩ | ⟨rfl, rfl⟩ <;>
    exact (step_write_field (r := .status) hr hs rfl rfl rfl).trans
      (congrArg _ (storeBytes_status_some (dataBytes_last (by decide))))

/-- A byte written to CTRL or STATUS before its last byte has no effect (spec/20_memory.md R65). -/
theorem step_write_other_byte {r : PortReg} (hr : s.rst = .released) (hs : s.sched = .write a 1 v :: rest)
    (hfield : r.alwaysWritable = true) (hlow : r.base ≤ a.toNat) (hhigh : a.toNat < r.base + 3) :
    step s = .next ((s.withSched rest).answer (.write .okay)) := by
  have hsize : r.size = 4 := by
    cases r with
    | ctrl | status => rfl
    | _ => cases hfield
  have hcovers : r.covers a = true := covers_iff.mpr ⟨hlow, by omega⟩
  have hmissing : (dataBytes 1 v)[3 - (a.toNat - r.base)]? = none := by
    rw [List.getElem?_eq_none_iff, dataBytes, intToBytes_length]
    omega
  exact (step_write_field hr hs hfield hcovers rfl).trans (congrArg _ (storeBytes_none hfield hmissing))

/-! ## CMD -/

/-- Settles O5: the idle port takes the write to CMD, and issuing the word runs what it decodes to. -/
theorem stepRunsTheIssuedCommand : Obligations.StepRunsTheIssuedCommand := by
  intro s c i rest hr hp hs hdecode
  rw [step_issue hr hp hs]
  simp only [issueCommand, hdecode]
  rfl

/-! ## CTRL and STATUS -/

theorem testBit_eq_of_div_mod {x k : Nat} {b : Bool} (h : x / 2 ^ k % 2 = b.toNat) : x.testBit k = b := by
  rw [Nat.testBit_eq_decide_div_mod_eq, h]
  cases b <;> rfl

/-- Settles O36: the byte with bits 7:0 is the last of CTRL, and a write of a byte before it has no effect. -/
theorem controlRegisterWrite : Obligations.ControlRegisterWrite := by
  refine ⟨fun s a n v rest hr hs => ⟨fun h => ?_, fun ⟨hlow, hhigh, hn⟩ => ?_⟩, rfl, fun s => ?_⟩
  · rw [step_write_ctrl hr hs h]
    simp [State.writeCtrl, State.busy, State.withSched, State.answer]
  · subst hn
    exact step_write_other_byte (r := .ctrl) hr hs rfl hlow (Nat.lt_succ_of_le hhigh)
  · have hie := s.ie.toNat_lt
    have hpie := s.pie.toNat_lt
    have hword : s.ctrlWord = s.ie.toNat + 2 * s.pie.toNat := rfl
    exact ⟨by omega, testBit_eq_of_div_mod (by omega), testBit_eq_of_div_mod (by omega)⟩

theorem code_lt (e : ErrCode) : e.code < 16 := by cases e <;> decide

/-- Settles O37: the byte with bits 7:0 is the last of STATUS, and a write of a byte before it has no effect; the
fields of the word lie apart. -/
theorem statusRegisterWrite : Obligations.StatusRegisterWrite := by
  refine ⟨fun s a n v rest hr hs => ⟨fun h => ?_, fun ⟨hlow, hhigh, hn⟩ => ?_⟩, fun s => ?_⟩
  · rw [step_write_status hr hs h]
    simp [State.writeStatus, State.withSched, State.answer]
  · subst hn
    exact step_write_other_byte (r := .status) hr hs rfl hlow (Nat.lt_succ_of_le hhigh)
  · have hbusy := s.busy.toNat_lt
    have hdone := s.done.toNat_lt
    have hprog := s.prog.toNat_lt
    have hprime := s.prime.toNat_lt
    have hcode := code_lt s.err
    have hword : s.statusWord =
      s.busy.toNat + 2 * s.done.toNat + 4 * s.prog.toNat + 8 * s.prime.toNat + 256 * s.err.code := rfl
    refine ⟨by omega, testBit_eq_of_div_mod (b := s.busy) (by omega), testBit_eq_of_div_mod (by omega),
      testBit_eq_of_div_mod (by omega), testBit_eq_of_div_mod (by omega), by omega, ?_⟩
    have herr : s.statusWord / 2 ^ 8 = s.err.code := by omega
    rw [herr]
    cases s.err <;> rfl

/-! ## ID -/

/-- Settles O39: ID is read-only, and the offsets up to 0x003 are its window. -/
theorem idIsConstant : Obligations.IdIsConstant := by
  constructor
  · intro s rest hr hs
    have hread := act_read (s := s.withSched rest) hr 0x000#12 4
    have hloc : locate 0x000#12 = some (.id, 0) := locate_of_covers rfl
    have hdata : BitVec.ofNat 32 (bytesToInt (((s.withSched rest).image .id).take 4)) = 0x46524301#32 := by
      show BitVec.ofNat 32 (bytesToInt ((intToBytes Config.id.toNat 4).take 4)) = _
      decide
    rw [step_cons hs, hread]
    simp only [State.hostRead, legalAccess, hloc, List.drop_zero, hdata]
    rfl
  · intro s a n v rest hr ha hs
    have hcovers : PortReg.id.covers a = true := covers_iff.mpr ⟨Nat.zero_le _, Nat.lt_succ_of_le ha⟩
    rw [step_write hr hs, hostWrite_refused (writeTarget_of_readOnly (locate_of_covers hcovers) rfl)]
    rfl

/-! ## Completion and irq -/

/-- A running command that is idle after its step has completed: it was cancelled, or it committed. -/
theorem exec_completed {i : Instr} {t : State} (hp : s.phase = .run) (h : exec i s = .next t)
    (hidle : t.phase = .idle) :
    ∃ w l rem prime e, t =
      State.complete { s with w := w, l := l, rem := rem, prime := prime } e := by
  rcases exec_cases h with ⟨hnot, -⟩ | ⟨hnot, -⟩ | ⟨-, -, rfl⟩ | ⟨-, -, -, rfl⟩ | ⟨-, -, -, rfl⟩
  · cases hp.symm.trans hnot
  · cases hp.symm.trans hnot
  · exact ⟨s.w, s.l, s.rem, s.prime, .ecancel, rfl⟩
  · obtain ⟨w, l, rem, prime, hframe⟩ := commit_frame i s.snap s.loop s
    exact ⟨w, l, rem, prime, .ok, by rw [State.commitStep, hframe]⟩
  · obtain ⟨p, d, m, g, hframe⟩ := iterateStep_frame s (commandOf i)
    rw [hframe] at hidle
    cases hp.symm.trans hidle

/-- What a word written to CMD of an idle core does, by the check table: it completes at once with the code of the
check, or a command starts. -/
theorem step_issue_checkWord {c : Word} (hr : s.rst = .released) (hp : s.phase = .idle)
    (hs : s.sched = .write 0x00C#12 4 c :: rest) :
    let u := ((s.withSched rest).answer (.write .okay)).latchCommand c
    (checkWord c s ≠ .ok → step s = .next (u.complete (checkWord c s))) ∧
      (checkWord c s = .ok → ∃ i, encode i = c ∧ step s = .next (u.start i (commandOf i))) := by
  rw [step_issue hr hp hs]
  by_cases hillegal : illegalWord c
  · have hcheck := checkWord_illegal (s := s) hillegal
    refine ⟨fun _ => ?_, fun hok => absurd (hok.symm.trans hcheck) (by decide)⟩
    cases hdecode : decode c with
    | ok i => exact absurd hillegal (encode_of_decode hdecode ▸ encode_legal i)
    | illegal why => simp only [issueCommand, hdecode, hcheck]
  · obtain ⟨i, rfl⟩ : ∃ i, encode i = c := ⟨_, encode_legalCommand hillegal⟩
    let u := (s.withSched rest).answer (.write .okay)
    have hexec : issueCommand (encode i) u = .next (u.accept i (commandOf i)) := by
      simp only [issueCommand, decode_encode]
      exact exec_idle hp
    have hcheck : (commandOf i).check u = checkWord (encode i) s := by
      rw [checkWord_encode]
      apply check_congr <;> rfl
    rw [hexec]
    constructor
    · intro hfail
      rw [accept_of_check_ne (hcheck ▸ hfail), hcheck]
    · intro hok
      exact ⟨i, rfl, congrArg _ (accept_of_check_ok (hcheck.trans hok))⟩

/-- Settles O16: a completed step is `State.complete` after a frame, a word at CMD completes or starts by the check
table, and each field of CTRL and STATUS is written by its own byte. -/
theorem completionSignalsTheHost : Obligations.CompletionSignalsTheHost := by
  refine ⟨fun _ => rfl, ?_, ?_, fun s a n v rest hr hs => ⟨fun h => ?_, fun h => ?_⟩⟩
  · intro i s t hp hexec hidle
    obtain ⟨w, l, rem, prime, e, rfl⟩ := exec_completed hp hexec hidle
    exact ⟨rfl, rfl, rfl, rfl, rfl, by simp [State.irq]⟩
  · intro s c rest hr hp hs
    obtain ⟨hfail, hstart⟩ := step_issue_checkWord hr hp hs
    by_cases hok : checkWord c s = .ok
    · obtain ⟨i, rfl, hstep⟩ := hstart hok
      exact ⟨_, hstep, rfl, rfl, rfl, fun hne => absurd hok hne, fun _ => ⟨rfl, rfl, by simp [State.irq]⟩⟩
    · exact ⟨_, hfail hok, rfl, rfl, rfl, fun _ => ⟨rfl, rfl, by simp [State.irq]⟩, fun h => absurd h hok⟩
  · refine ⟨_, step_write_status hr hs h, ?_⟩
    simp [State.irq]
  · refine ⟨_, step_write_ctrl hr hs h, ?_⟩
    simp [State.irq]

end Sys2Proof.Machine
end

section
/-! PROOFS. The windows of the port, byte by byte: the address map gives every offset that is not reserved to one window
(spec/20_memory.md R61), an access stays in its window, and the bytes of a register that a write reaches are spliced
(R64). The statements on reads and on data writes follow. -/

namespace Sys2Proof.Machine

variable {s : State} {a : Offset} {r q : PortReg}

/-! ## The address map -/

theorem covers_of_locate {k : Nat} (h : locate a = some (r, k)) : r.covers a = true ∧ k = a.toNat - r.base := by
  obtain ⟨p, hfind, hp⟩ := Option.map_eq_some_iff.mp h
  cases hp
  exact ⟨List.find?_some (p := fun p : PortReg => p.covers a) hfind, rfl⟩

/-- The reserved offsets of spec/20_memory.md R61 are those in no window. -/
theorem locate_eq_none_iff : locate a = none ↔ reservedOffset a := by
  have ha := a.isLt
  simp only [locate, Option.map_eq_none_iff, List.find?_eq_none, covers_iff, addressMap, List.forall_mem_cons,
    List.not_mem_nil, false_imp_iff, implies_true, and_true, PortReg.base, PortReg.size, reservedOffset]
  omega

/-- Windows are whole words, at word addresses of the port. -/
theorem window_bounds (r : PortReg) : r.base % 4 = 0 ∧ r.size % 4 = 0 ∧ r.base + r.size ≤ 2 ^ 12 := by
  have hall : ∀ r ∈ addressMap, r.base % 4 = 0 ∧ r.size % 4 = 0 ∧ r.base + r.size ≤ 2 ^ 12 := by decide
  exact hall r (mem_addressMap r)

theorem legalAccess_iff {n : Nat} : legalAccess a n = true ↔ lawfulAccess a n := by
  simp [legalAccess, lawfulAccess]

/-- An access does not leave the window it begins in. -/
theorem access_in_window {n : Nat} (hcovers : r.covers a = true) (h : lawfulAccess a n) :
    a.toNat - r.base + n ≤ r.size := by
  obtain ⟨hbase, hsize, -⟩ := window_bounds r
  obtain ⟨hlow, hhigh⟩ := covers_iff.mp hcovers
  rcases h with hn | ⟨hn, halign⟩ <;> omega

/-- A byte of an access: its offset does not wrap and lies in the same window. -/
theorem covers_add {j : Nat} (hcovers : r.covers a = true) (h : a.toNat - r.base + j < r.size) :
    (a + BitVec.ofNat 12 j).toNat = a.toNat + j ∧ r.covers (a + BitVec.ofNat 12 j) = true := by
  obtain ⟨-, -, hend⟩ := window_bounds r
  obtain ⟨hlow, -⟩ := covers_iff.mp hcovers
  have hnat : (a + BitVec.ofNat 12 j).toNat = a.toNat + j := by
    rw [BitVec.toNat_add, BitVec.toNat_ofNat]
    omega
  exact ⟨hnat, covers_iff.mpr (by omega)⟩

/-! ## The bytes of a window -/

theorem image_length (s : State) (r : PortReg) : (s.image r).length = r.size := intToBytes_length _ _

theorem portByte_of_covers (s : State) (h : r.covers a = true) : s.portByte a = (s.image r)[a.toNat - r.base]? := by
  obtain ⟨hlow, hhigh⟩ := covers_iff.mp h
  rw [State.portByte, locate_of_covers h, State.image, intToBytes_getElem? (by omega), Option.map_some]

theorem portByte_reserved (s : State) (h : reservedOffset a) : s.portByte a = none := by
  rw [State.portByte, locate_eq_none_iff.mpr h, Option.map_none]

theorem portByte_add (s : State) {j : Nat} (hcovers : r.covers a = true) (h : a.toNat - r.base + j < r.size) :
    s.portByte (a + BitVec.ofNat 12 j) = (s.image r)[a.toNat - r.base + j]? := by
  obtain ⟨hnat, hcovers'⟩ := covers_add hcovers h
  obtain ⟨hlow, -⟩ := covers_iff.mp hcovers
  rw [portByte_of_covers s hcovers', hnat, Nat.sub_add_comm hlow]

theorem portByte_window (s : State) (r : PortReg) (k : Nat) (h : k < r.size) :
    s.portByte (BitVec.ofNat 12 (r.base + k)) = some (byteAt (s.portValue r) r.size k) := by
  obtain ⟨-, -, hend⟩ := window_bounds r
  have hnat : (BitVec.ofNat 12 (r.base + k)).toNat = r.base + k := by
    rw [BitVec.toNat_ofNat]
    omega
  have hcovers : r.covers (BitVec.ofNat 12 (r.base + k)) = true := covers_iff.mpr (by omega)
  rw [portByte_of_covers s hcovers, hnat, Nat.add_sub_cancel_left, State.image, intToBytes_getElem? h]

/-- The port shows equal bytes where the windows are equal. -/
theorem portByte_congr {t : State} (h : ∀ r, r.covers a = true → t.portValue r = s.portValue r) :
    t.portByte a = s.portByte a := by
  cases hloc : locate a with
  | none => rw [State.portByte, State.portByte, hloc, Option.map_none, Option.map_none]
  | some target =>
    obtain ⟨r, k⟩ := target
    obtain ⟨hcovers, -⟩ := covers_of_locate hloc
    rw [portByte_of_covers t hcovers, portByte_of_covers s hcovers, State.image, State.image, h r hcovers]

theorem modulus_lt : Config.N < 256 ^ 256 := by decide

/-- Every register fits its window. -/
theorem portValue_lt (s : State) (r : PortReg) : s.portValue r < 256 ^ r.size := by
  obtain ⟨-, -, hctrlFields⟩ := controlRegisterWrite
  obtain ⟨-, hstatusFields⟩ := statusRegisterWrite
  obtain ⟨hctrl, -⟩ := hctrlFields s
  obtain ⟨hstatus, -⟩ := hstatusFields s
  rw [lt_256_pow_iff]
  cases r with
  | id => exact bitlen_toNat_le Config.id
  | ctrl => exact bitlen_le_iff.mpr (hctrl.trans (by decide))
  | status => exact bitlen_le_iff.mpr (hstatus.trans (by decide))
  | cmd => exact bitlen_toNat_le s.cmd
  | t => exact bitlen_toNat_le s.t
  | iter => exact bitlen_toNat_le s.iter
  | progInterval => exact bitlen_toNat_le s.progInterval
  | seed => exact bitlen_toNat_le s.seed
  | l => exact bitlen_toNat_le s.l
  | rem => exact bitlen_toNat_le s.rem
  | w i => exact bitlen_toNat_le (s.wreg i)
  | n => exact lt_256_pow_iff.mp modulus_lt

/-- Settles O34: the window of each register is its value's bytes, which are enough for it, and the address map gives
the window's offsets to that register. -/
theorem windowHoldsTheRegisterValue : Obligations.WindowHoldsTheRegisterValue := by
  refine ⟨fun s r => ⟨image_length s r, bytesToInt_intToBytes_of_lt (portValue_lt s r), fun k hk => ?_⟩, fun s => ?_⟩
  · rw [portByte_window s r k hk, State.image, intToBytes_getElem? hk]
  · exact ⟨portByte_window s .id, portByte_window s .ctrl, portByte_window s .status, portByte_window s .cmd,
      portByte_window s .t, portByte_window s .iter, portByte_window s .progInterval, portByte_window s .seed,
      portByte_window s .l, portByte_window s .rem, fun i => portByte_window s (.w i), portByte_window s .n,
      fun _ => portByte_reserved s⟩

/-! ## Reads -/

/-- A byte of a string is that byte of its value. -/
theorem getElem?_eq_byteAt {b : List Byte} {n j : Nat} (hn : b.length = n) (hj : j < n) :
    b[j]? = some (byteAt (bytesToInt b) n j) := by
  subst hn
  rw [← intToBytes_getElem? hj, intToBytes_bytesToInt]

theorem hostRead_refused {n : Nat} (h : ¬ lawfulAccess a n ∨ reservedOffset a) :
    s.hostRead a n = s.answer (.read .error 0#32) := by
  rw [State.hostRead]
  split
  · rename_i hlegal
    have hreserved := h.resolve_left (not_not_intro (legalAccess_iff.mp hlegal))
    simp only [locate_eq_none_iff.mpr hreserved]
  · rfl

theorem hostRead_okay {n : Nat} (hlawful : lawfulAccess a n) (hcovers : r.covers a = true) :
    s.hostRead a n = s.answer (.read .okay
      (BitVec.ofNat 32 (bytesToInt (((s.image r).drop (a.toNat - r.base)).take n)))) := by
  simp only [State.hostRead, legalAccess_iff.mpr hlawful, if_true, locate_of_covers hcovers]

/-- The bytes read fit the datum. -/
theorem readData_toNat {n : Nat} {b : List Byte} (hlawful : lawfulAccess a n) (hb : b.length = n) :
    (BitVec.ofNat 32 (bytesToInt b)).toNat = bytesToInt b := by
  have hlt := bytesToInt_lt b
  rw [BitVec.toNat_ofNat]
  rcases hlawful with rfl | ⟨rfl, -⟩ <;> rw [hb] at hlt <;> omega

theorem step_read {n : Nat} {rest : List Action} (hr : s.rst = .released) (hs : s.sched = .read a n :: rest) :
    step s = .next ((s.withSched rest).hostRead a n) := by
  rw [step_cons hs]
  exact act_read (s := s.withSched rest) hr a n

/-- Settles O33: a read that the port takes stays in one window and answers the bytes there. -/
theorem hostReadReturnsTheWindowBytes : Obligations.HostReadReturnsTheWindowBytes := by
  intro s a n rest hr hs
  rw [step_read hr hs]
  refine ⟨fun hrefused => by rw [hostRead_refused hrefused]; rfl, fun ⟨hlawful, hopen⟩ => ?_⟩
  obtain ⟨⟨r, k⟩, hloc⟩ := Option.ne_none_iff_exists'.mp (mt locate_eq_none_iff.mp hopen)
  obtain ⟨hcovers, -⟩ := covers_of_locate hloc
  have hinside := access_in_window hcovers hlawful
  let b := ((s.image r).drop (a.toNat - r.base)).take n
  have hb : b.length = n := by
    rw [List.length_take, List.length_drop, image_length]
    omega
  have himage : (s.withSched rest).image r = s.image r := by cases r <;> rfl
  refine ⟨BitVec.ofNat 32 (bytesToInt b), ?_, ?_, fun j hj => ?_⟩
  · rw [hostRead_okay hlawful hcovers, himage]
    rfl
  · rw [readData_toNat hlawful hb, ← hb]
    exact bytesToInt_lt b
  · rw [readData_toNat hlawful hb, ← getElem?_eq_byteAt hb hj, portByte_add s hcovers (by omega),
      List.getElem?_take_of_lt hj, List.getElem?_drop]

/-! ## Data writes -/

section Splice

variable {old new : List Byte} {k i j : Nat}

theorem splice_length (h : k + new.length ≤ old.length) : (splice old k new).length = old.length := by
  simp only [splice, List.length_append, List.length_take, List.length_drop]
  omega

theorem splice_getElem?_new (h : k + new.length ≤ old.length) (hj : j < new.length) :
    (splice old k new)[k + j]? = new[j]? := by
  have htake : (old.take k).length = k := List.length_take_of_le (by omega)
  rw [splice, List.append_assoc, List.getElem?_append_right (by omega), htake, Nat.add_sub_cancel_left,
    List.getElem?_append_left hj]

theorem splice_getElem?_old (h : k + new.length ≤ old.length) (hi : i < k ∨ k + new.length ≤ i) :
    (splice old k new)[i]? = old[i]? := by
  have htake : (old.take k).length = k := List.length_take_of_le (by omega)
  rw [splice, List.append_assoc]
  rcases hi with hbefore | hafter
  · rw [List.getElem?_append_left (by omega), List.getElem?_take_of_lt hbefore]
  · rw [List.getElem?_append_right (by omega), htake, List.getElem?_append_right (by omega), List.getElem?_drop]
    congr 1
    omega

end Splice

/-- The registers that a host writes byte by byte (spec/20_memory.md R64). -/
def PortReg.isData : PortReg → Bool
  | .t => true
  | .progInterval => true
  | .seed => true
  | .l => true
  | .w _ => true
  | _ => false

theorem isData_kind (h : r.isData = true) : r ≠ .cmd ∧ r ≠ .ctrl ∧ r ≠ .status ∧ r.readOnly = false := by
  cases r with
  | t | progInterval | seed | l | w => exact ⟨nofun, nofun, nofun, rfl⟩
  | _ => cases h

theorem exists_covers_of_dataOffset (h : dataOffset a) : ∃ r : PortReg, r.isData = true ∧ r.covers a = true := by
  simp only [covers_iff]
  rcases h with ⟨hlow, hhigh⟩ | ⟨hlow, hhigh⟩ | ⟨hlow, hhigh⟩ | hw
  · exact ⟨.t, rfl, hlow, Nat.lt_succ_of_le hhigh⟩
  · exact ⟨.progInterval, rfl, hlow, Nat.lt_succ_of_le hhigh⟩
  · by_cases hseed : a.toNat < 0x060
    · exact ⟨.seed, rfl, hlow, hseed⟩
    · exact ⟨.l, rfl, not_lt.mp hseed, Nat.lt_succ_of_le hhigh⟩
  · refine ⟨.w ⟨a.toNat / 0x100 - 1, by omega⟩, rfl, ?_⟩
    simp only [PortReg.base, PortReg.size]
    omega

theorem toNat_ofNat_of_bitlen {w v : Nat} (h : bitlen v ≤ w) : (BitVec.ofNat w v).toNat = v := by
  rw [BitVec.toNat_ofNat, Nat.mod_eq_of_lt (bitlen_le_iff.mp h)]

theorem setPort_portValue_same {v : Nat} (hdata : r.isData = true) (hv : v < 256 ^ r.size) :
    (s.setPort r v).portValue r = v := by
  have hbits : bitlen v ≤ 8 * r.size := lt_256_pow_iff.mp hv
  cases r with
  | t => exact toNat_ofNat_of_bitlen (w := 64) hbits
  | progInterval => exact toNat_ofNat_of_bitlen (w := 32) hbits
  | seed => exact toNat_ofNat_of_bitlen (w := 256) hbits
  | l => exact toNat_ofNat_of_bitlen (w := 288) hbits
  | w i =>
    show ((s.setW i v).wreg i).toNat = v
    rw [State.setW_wreg_same, toNat_ofNat_of_bitlen (w := 2048) hbits]
  | _ => cases hdata

theorem setPort_portValue_other {v : Nat} (h : q ≠ r) : (s.setPort r v).portValue q = s.portValue q := by
  cases r with
  | id | ctrl | status | cmd | iter | rem | n => rfl
  | t =>
    cases q with
    | t => exact absurd rfl h
    | _ => rfl
  | progInterval =>
    cases q with
    | progInterval => exact absurd rfl h
    | _ => rfl
  | seed =>
    cases q with
    | seed => exact absurd rfl h
    | _ => rfl
  | l =>
    cases q with
    | l => exact absurd rfl h
    | _ => rfl
  | w i =>
    cases q with
    | w j =>
      show ((s.setW i v).wreg j).toNat = (s.wreg j).toNat
      rw [State.setW_wreg_other s i j v fun hij => h (congrArg _ hij)]
    | _ => rfl

/-- Bytes stored at a data register are spliced into its window. -/
theorem image_storeBytes {k : Nat} {bs : List Byte} (hdata : r.isData = true) (h : k + bs.length ≤ r.size) :
    (s.storeBytes r k bs).image r = splice (s.image r) k bs := by
  obtain ⟨-, hctrl, hstatus, -⟩ := isData_kind hdata
  have hlen : (splice (s.image r) k bs).length = r.size := by rw [splice_length (by rwa [image_length]), image_length]
  have hlt := bytesToInt_lt (splice (s.image r) k bs)
  rw [hlen] at hlt
  rw [storeBytes_data hctrl hstatus, State.image, setPort_portValue_same hdata hlt, ← hlen, intToBytes_bytesToInt]

theorem storeBytes_portValue_other {k : Nat} {bs : List Byte} (hdata : r.isData = true) (h : q ≠ r) :
    (s.storeBytes r k bs).portValue q = s.portValue q := by
  obtain ⟨-, hctrl, hstatus, -⟩ := isData_kind hdata
  rw [storeBytes_data hctrl hstatus, setPort_portValue_other h]

theorem storeBytes_data_frame (s : State) (k : Nat) (bs : List Byte) (hdata : r.isData = true) :
    let t := s.storeBytes r k bs
    t.resp = s.resp ∧ t.sched = s.sched ∧ t.phase = s.phase ∧ t.op = s.op ∧ t.snap = s.snap ∧ t.loop = s.loop ∧
      t.doneLoop = s.doneLoop ∧ t.abortPending = s.abortPending ∧ t.rst = s.rst := by
  obtain ⟨-, hctrl, hstatus, -⟩ := isData_kind hdata
  obtain ⟨_, _, _, _, _, hframe⟩ := setPort_frame s r (bytesToInt (splice (s.image r) k bs))
  rw [storeBytes_data hctrl hstatus, hframe]
  exact ⟨rfl, rfl, rfl, rfl, rfl, rfl, rfl, rfl, rfl⟩

section Stored

variable {bs : List Byte}

theorem storeBytes_portByte_new {j : Nat} (hdata : r.isData = true) (hcovers : r.covers a = true)
    (hinside : a.toNat - r.base + bs.length ≤ r.size) (hj : j < bs.length) :
    (s.storeBytes r (a.toNat - r.base) bs).portByte (a + BitVec.ofNat 12 j) = bs[j]? := by
  rw [portByte_add _ hcovers (by omega), image_storeBytes hdata hinside,
    splice_getElem?_new (by rwa [image_length]) hj]

theorem storeBytes_portByte_old {b : Offset} (hdata : r.isData = true) (hcovers : r.covers a = true)
    (hinside : a.toNat - r.base + bs.length ≤ r.size) (hb : ∀ j, j < bs.length → b ≠ a + BitVec.ofNat 12 j) :
    (s.storeBytes r (a.toNat - r.base) bs).portByte b = s.portByte b := by
  by_cases hsame : r.covers b = true
  · obtain ⟨hlow, -⟩ := covers_iff.mp hcovers
    obtain ⟨hlow', -⟩ := covers_iff.mp hsame
    have houtside : b.toNat - r.base < a.toNat - r.base ∨
        a.toNat - r.base + bs.length ≤ b.toNat - r.base := by
      by_contra hwithin
      have hj : b.toNat - a.toNat < bs.length := by omega
      obtain ⟨hnat, -⟩ := covers_add (j := b.toNat - a.toNat) hcovers (by omega)
      exact hb _ hj (BitVec.eq_of_toNat_eq (by omega))
    rw [portByte_of_covers _ hsame, portByte_of_covers _ hsame, image_storeBytes hdata hinside,
      splice_getElem?_old (by rwa [image_length]) houtside]
  · refine portByte_congr fun q hq => storeBytes_portValue_other hdata ?_
    rintro rfl
    exact hsame hq

end Stored

/-- A write that an idle port takes to a data register stores its bytes there. -/
theorem step_write_data {n : Nat} {v : Word} {rest : List Action} (hr : s.rst = .released) (hp : s.phase = .idle)
    (hs : s.sched = .write a n v :: rest) (hlawful : lawfulAccess a n) (hdata : r.isData = true)
    (hcovers : r.covers a = true) :
    step s = .next (((s.withSched rest).answer (.write .okay)).storeBytes r (a.toNat - r.base) (dataBytes n v)) := by
  obtain ⟨hcmd, -, -, hro⟩ := isData_kind hdata
  have htarget : (s.withSched rest).writeTarget a n = some (r, a.toNat - r.base) :=
    writeTarget_of_locate (legalAccess_iff.mpr hlawful) (locate_of_covers hcovers) (fun h => absurd h hcmd) hro
      fun hrun => absurd (hp.symm.trans hrun) (by decide)
  rw [step_write hr hs, hostWrite_store hcmd htarget]

/-- Settles O35: the write is spliced into one window, and the other windows keep their registers. -/
theorem dataWriteReplacesItsBytes : Obligations.DataWriteReplacesItsBytes := by
  intro s a n v rest hr hp hs hlawful hoffset
  obtain ⟨r, hdata, hcovers⟩ := exists_covers_of_dataOffset hoffset
  have hlen : (dataBytes n v).length = n := intToBytes_length _ _
  have hinside : a.toNat - r.base + (dataBytes n v).length ≤ r.size := hlen.symm ▸ access_in_window hcovers hlawful
  let u := (s.withSched rest).answer (.write .okay)
  have hvisible (b : Offset) : u.portByte b = s.portByte b := portByte_congr fun q _ => by cases q <;> rfl
  obtain ⟨hresp, hsched, hsequencer⟩ := storeBytes_data_frame u (a.toNat - r.base) (dataBytes n v) hdata
  refine ⟨_, step_write_data hr hp hs hlawful hdata hcovers, hresp, hsched, fun j hj => ?_, fun b hb => ?_, hsequencer⟩
  · rw [storeBytes_portByte_new hdata hcovers hinside (hlen.symm ▸ hj), dataBytes, intToBytes_getElem? hj]
  · exact (storeBytes_portByte_old hdata hcovers hinside (hlen.symm ▸ hb)).trans (hvisible b)

end Sys2Proof.Machine
end

section
/-! PROOFS. What a host transaction leaves alone. A running command takes from the port only CTRL and STATUS
(spec/20_memory.md R66), and no rule of the sequencer reads the schedule or the last response, so that its moves
commute with every host read (R70, R71). -/

namespace Sys2Proof.Machine

variable {s : State} {a : Offset} {n : Nat} {v : Word}

/-! ## A host transaction while a command runs -/

theorem hostWrite_run (hp : s.phase = .run) :
    hostWrite a n v s = .next (s.answer (.write .error)) ∨
      ∃ r : PortReg, r.alwaysWritable = true ∧ r.covers a = true ∧ lawfulAccess a n ∧
        hostWrite a n v s =
          .next ((s.answer (.write .okay)).storeBytes r (a.toNat - r.base) (dataBytes n v)) := by
  cases htarget : s.writeTarget a n with
  | none => exact .inl (hostWrite_refused htarget)
  | some target =>
    obtain ⟨r, k⟩ := target
    obtain ⟨hlegal, hloc, -, -, hbusy⟩ := writeTarget_some htarget
    obtain ⟨hcovers, rfl⟩ := covers_of_locate hloc
    have hcmd : r ≠ .cmd := by
      rintro rfl
      exact absurd (hbusy hp) (by decide)
    exact .inr ⟨r, hbusy hp, hcovers, legalAccess_iff.mp hlegal, hostWrite_store hcmd htarget⟩

/-- A write that the port takes to CTRL or STATUS has the effect of bits 7:0 of its datum, or none. -/
theorem storeBytes_field {r : PortReg} (hfield : r.alwaysWritable = true) (hcovers : r.covers a = true)
    (hlawful : lawfulAccess a n) :
    s.storeBytes r (a.toNat - r.base) (dataBytes n v) = s ∨
      (r = .ctrl ∧ s.storeBytes r (a.toNat - r.base) (dataBytes n v) = s.writeCtrl (v.setWidth 8)) ∨
      (r = .status ∧ s.storeBytes r (a.toNat - r.base) (dataBytes n v) = s.writeStatus (v.setWidth 8)) := by
  have hinside := access_in_window hcovers hlawful
  have hpos : 0 < n := by
    rcases hlawful with hn | ⟨hn, -⟩ <;> omega
  have hsize : r.size = 4 := by
    cases r with
    | ctrl | status => rfl
    | _ => cases hfield
  by_cases hend : a.toNat - r.base + n = 4
  · have hlast : (dataBytes n v)[3 - (a.toNat - r.base)]? = some (v.setWidth 8) := by
      rw [← dataBytes_last hpos]
      congr 1
      omega
    cases r with
    | ctrl => exact .inr (.inl ⟨rfl, storeBytes_ctrl_some hlast⟩)
    | status => exact .inr (.inr ⟨rfl, storeBytes_status_some hlast⟩)
    | _ => cases hfield
  · refine .inl (storeBytes_none hfield ?_)
    rw [List.getElem?_eq_none_iff, dataBytes, intToBytes_length]
    omega

/-- An abort request is changed only by a 1 at CTRL.ABORT. -/
theorem abort_bit_of_writeCtrl_ne (h : (s.writeCtrl (v.setWidth 8)).abortPending ≠ s.abortPending) :
    v.getLsbD 2 = true := by
  by_contra hbit
  have hclear : (v.setWidth 8).getLsbD 2 = false := by simpa using hbit
  exact h (by simp only [State.writeCtrl_abortPending, hclear, Bool.false_and, Bool.or_false])

/-- Settles O40: a running command's port takes CTRL and STATUS only, and of these CTRL alone reaches the abort
request. -/
theorem busyHostCannotTouchTheCommand : Obligations.BusyHostCannotTouchTheCommand := by
  intro s m rest hr hp hs hhost
  rcases hhost with ⟨a, n, rfl⟩ | ⟨a, n, v, rfl⟩
  · obtain ⟨resp, data, hread⟩ := hostRead_frame (s.withSched rest) a n
    exact ⟨_, (step_read hr hs).trans (congrArg _ hread), rfl, fun hne => absurd rfl hne⟩
  · rw [step_write hr hs]
    rcases hostWrite_run (s := s.withSched rest) (a := a) (n := n) (v := v) hp with
      hrefused | ⟨r, hfield, hcovers, hlawful, hstore⟩
    · exact ⟨_, hrefused, rfl, fun hne => absurd rfl hne⟩
    · refine ⟨_, hstore, ?_⟩
      rcases storeBytes_field (s := (s.withSched rest).answer (.write .okay)) (v := v) hfield hcovers hlawful with
        hsame | ⟨rfl, hctrl⟩ | ⟨-, hstatus⟩
      · rw [hsame]
        exact ⟨rfl, fun hne => absurd rfl hne⟩
      · rw [hctrl]
        obtain ⟨hlow, hhigh⟩ := covers_iff.mp hcovers
        exact ⟨rfl, fun hne => ⟨a, n, v, rfl, hlow, Nat.le_of_lt_succ hhigh, abort_bit_of_writeCtrl_ne hne⟩⟩
      · rw [hstatus]
        exact ⟨rfl, fun hne => absurd rfl hne⟩

/-! ## The sequencer's moves among host reads -/

/-- The state after the sequencer's move (spec/10_state.md R44). -/
def State.afterSequencer (s : State) : State :=
  match s.phase with
  | .run => s.advance (commandOf s.op)
  | .idle => s

/-- The state with other moves to come and another last response: nothing of the core (log entries 1 and 3). -/
def State.outside (s : State) (moves : List Action) (resp : Response) : State := { s with sched := moves, resp := resp }

theorem afterSequencer_idle (hp : s.phase = .idle) : s.afterSequencer = s := by
  simp only [State.afterSequencer, hp]

theorem afterSequencer_run (hp : s.phase = .run) : s.afterSequencer = s.advance (commandOf s.op) := by
  simp only [State.afterSequencer, hp]

theorem act_sequencer (hr : s.rst = .released) : act .sequencer s = .next s.afterSequencer := by
  cases hp : s.phase with
  | idle => rw [act_sequencer_idle hp, afterSequencer_idle hp]
  | run => rw [act_sequencer_run hr hp, exec_run hp, afterSequencer_run hp]

theorem afterSequencer_rst (s : State) : s.afterSequencer.rst = s.rst := by
  cases hp : s.phase with
  | idle => rw [afterSequencer_idle hp]
  | run =>
    obtain ⟨-, -, -, -, -, hrst, -⟩ := exec_frame (exec_run (i := s.op) hp)
    rw [afterSequencer_run hp, hrst]

theorem iterateStep_outside (s : State) (k : Command) (moves : List Action) (resp : Response) :
    (s.outside moves resp).iterateStep k = (s.iterateStep k).outside moves resp := by
  unfold State.iterateStep
  cases k.iterate <;> rfl

theorem commitStep_outside (s : State) (i : Instr) (moves : List Action) (resp : Response) :
    (s.outside moves resp).commitStep (commandOf i) = (s.commitStep (commandOf i)).outside moves resp := by
  cases i <;> rfl

theorem advance_outside (s : State) (i : Instr) (moves : List Action) (resp : Response) :
    (s.outside moves resp).advance (commandOf i) = (s.advance (commandOf i)).outside moves resp := by
  have habort : (s.outside moves resp).abortPending = s.abortPending := rfl
  have hdone : (s.outside moves resp).doneLoop = s.doneLoop := rfl
  rw [State.advance, State.advance, habort, hdone, commitStep_outside, iterateStep_outside]
  cases s.abortPending with
  | true => rfl
  | false => cases s.doneLoop <;> rfl

/-- The sequencer's move reads neither the schedule nor the last response. -/
theorem afterSequencer_outside (s : State) (moves : List Action) (resp : Response) :
    (s.outside moves resp).afterSequencer = s.afterSequencer.outside moves resp := by
  cases hp : s.phase with
  | idle => rw [afterSequencer_idle hp, afterSequencer_idle (s := s.outside moves resp) hp]
  | run =>
    rw [afterSequencer_run hp, afterSequencer_run (s := s.outside moves resp) hp]
    exact advance_outside s s.op moves resp

/-- A run of sequencer moves and reads is as many sequencer moves, whatever the reads are and wherever they fall. -/
theorem run_reads (moves : List Action) (s : State) (resp : Response) (hr : s.rst = .released)
    (hmoves : ∀ m ∈ moves, m = .sequencer ∨ ∃ a n, m = .read a n) :
    ∃ resp', Sys2Proof.core.run moves.length (s.outside moves resp) =
      .next ((State.afterSequencer^[moves.count .sequencer] s).outside [] resp') := by
  induction moves generalizing s resp with
  | nil => exact ⟨resp, rfl⟩
  | cons m moves ih =>
    have hrest : ∀ m ∈ moves, m = .sequencer ∨ ∃ a n, m = .read a n :=
      fun m hm => hmoves m (List.mem_cons_of_mem _ hm)
    rcases hmoves m List.mem_cons_self with rfl | ⟨a, n, rfl⟩
    · have hstep : step (s.outside (.sequencer :: moves) resp) = .next (s.afterSequencer.outside moves resp) := by
        rw [step_cons rfl, ← afterSequencer_outside]
        exact act_sequencer hr
      rw [List.length_cons, run_succ hstep, List.count_cons_self, Function.iterate_succ_apply]
      exact ih s.afterSequencer resp ((afterSequencer_rst s).trans hr) hrest
    · obtain ⟨answer, data, hread⟩ := hostRead_frame (s.outside moves resp) a n
      have hstep : step (s.outside (.read a n :: moves) resp) = .next (s.outside moves (.read answer data)) :=
        (step_read (s := s.outside (.read a n :: moves) resp) hr rfl).trans (congrArg _ hread)
      rw [List.length_cons, run_succ hstep, List.count_cons_of_ne (by simp)]
      exact ih s _ hr hrest

/-- Settles O41: both runs are the same number of sequencer moves. -/
theorem hostReadsNeverChangeARun : Obligations.HostReadsNeverChangeARun := by
  intro moves s hr hmoves
  obtain ⟨resp, hrun⟩ := run_reads moves s s.resp hr hmoves
  obtain ⟨resp', halone⟩ := run_reads (List.replicate (moves.count .sequencer) .sequencer) s s.resp hr
    fun m hm => .inl (List.eq_of_mem_replicate hm)
  rw [List.length_replicate, List.count_replicate_self] at halone
  exact ⟨_, _, hrun, halone, rfl⟩

end Sys2Proof.Machine
end

section
/-! PROOFS. The statements about the encoding: decoding and encoding agree in both directions, and the rejected words
are those that spec/30_encoding.md R92 and R95 call ILLEGAL. -/

namespace Sys2Proof.Machine

theorem decode_eq_ok_iff {c : Word} {i : Instr} : decode c = .ok i ↔ c = encode i := by
  constructor
  · exact fun h => (encode_of_decode h).symm
  · rintro rfl
    exact decode_encode i

/-- Settles O1: a row that matches leaves no bit of the word free, and the first row that matches a command's word is
the command's own. -/
theorem decodeIsExactlyInverseToEncode : Obligations.DecodeIsExactlyInverseToEncode := fun _ _ => decode_eq_ok_iff

/-- Settles O2: a word the decoder takes is a command's word, which no case of R95 names, and a word that none names is
the word of the command its fields spell. -/
theorem decodeRejectsExactlyTheIllegalWords : Obligations.DecodeRejectsExactlyTheIllegalWords := by
  intro c
  constructor
  · rintro ⟨why, hdecode⟩
    by_contra hlegal
    cases hdecode.symm.trans (decode_of_legal hlegal)
  · intro hillegal
    cases hdecode : decode c with
    | illegal why => exact ⟨why, rfl⟩
    | ok i =>
      obtain rfl := decode_eq_ok_iff.mp hdecode
      exact absurd hillegal (encode_legal i)

/-- Settles O7: the check table gives EILL before it reads a register, and completing an idle core leaves its phase. -/
theorem illegalWordCompletesWithEill : Obligations.IllegalWordCompletesWithEill := by
  refine ⟨by decide, fun s c rest hr hp hs hillegal => ?_⟩
  have hcheck : checkWord c s = .eill := checkWord_illegal hillegal
  obtain ⟨hfail, -⟩ := step_issue_checkWord hr hp hs
  rw [hfail (by simp [hcheck]), hcheck]
  simp only [State.complete, State.latchCommand, State.answer, State.withSched, hp]

/-- Settles O3: the sum of a command's fields, the fields its class lacks being 0. -/
theorem encodeWritesTheAssemblyWords : Obligations.EncodeWritesTheAssemblyWords := by
  refine ⟨fun d s => ?_, fun d a b => ?_, fun d b e => ?_, fun d s => ?_, fun d s => ?_, fun d s => ?_, fun s => ?_,
    ?_, ?_⟩ <;>
    simp [encode_toNat, Instr.opcodeWord, Instr.source1, Instr.source2, destination]

/-- Settles O4: each word is the one that the encoder gives the command beside it. -/
theorem writtenOutWordsDecode : Obligations.WrittenOutWordsDecode := by
  simp only [Obligations.WrittenOutWordsDecode, decode_eq_ok_iff]
  decide

end Sys2Proof.Machine
end

section
/-! PROOFS. A command's run from its accept to its commit, for every command: the accept whose checks pass, any number
of iterations, and the commit, each as a state. A command whose loop invariant ties done_loop to the count of
iterations done runs that many iterations (spec/10_state.md R43 to R47). -/

namespace Sys2Proof.Machine

variable {s : State} {i : Instr} {f : Snap → Loop → Loop}

/-! ## The accept and the commit -/

/-- The state after the accept of a command whose checks pass (spec/10_state.md R43). -/
def State.started (s : State) (i : Instr) : State := (s.latchCommand (encode i)).start i (commandOf i)

theorem exec_started (hp : s.phase = .idle) (hcheck : (commandOf i).check s = .ok) :
    exec i s = .next (s.started i) := by
  rw [exec_idle hp, accept_of_check_ok hcheck, State.started]

@[simp] theorem started_snap (s : State) (i : Instr) : (s.started i).snap = (commandOf i).snap s :=
  snap_congr i rfl rfl rfl rfl

@[simp] theorem started_loop (s : State) (i : Instr) :
    (s.started i).loop = (commandOf i).init ((commandOf i).snap s) :=
  congrArg (commandOf i).init (started_snap s i)

/-- A commit reads nothing of the sequencer but the latches and loop variables it is given, and writes nothing that
completion writes. -/
theorem commitStep_hideSequencer (u : State) (i : Instr) :
    (u.commitStep (commandOf i)).hideSequencer =
      (commandOf i).commit u.snap u.loop
        { u.hideSequencer with err := .ok, done := true, phase := .idle, abortPending := false } := by
  cases i <;> rfl

/-- A command without an iteration step commits at the step after its accept (spec/40_modarith.md R111). -/
theorem oneStep_run (hp : s.phase = .idle) (ha : s.abortPending = false) (hcheck : (commandOf i).check s = .ok)
    (hnone : (commandOf i).iterate = none) :
    ∃ t1 t2, exec i s = .next t1 ∧ exec i t1 = .next t2 ∧
      t2.hideSequencer =
        (commandOf i).commit ((commandOf i).snap s) ((commandOf i).init ((commandOf i).snap s))
          { s.hideSequencer with cmd := encode i, iter := 0#64, done := true, err := .ok } := by
  refine ⟨s.started i, _, exec_started hp hcheck, exec_commit rfl rfl (done_of_iterate_none hnone _ _), ?_⟩
  rw [commitStep_hideSequencer, started_snap, started_loop]
  simp only [State.started, State.hideSequencer, State.start, State.latchCommand, hp, ha]

/-! ## The iterations -/

/-- The state after `k` iterations of a command's loop step `f` (spec/10_state.md R44, R47): the loop variables moved
on `k` times, ITER counted `k` steps, and PROG set where a progress event fell on one of them. -/
def State.afterIterations (s : State) (i : Instr) (f : Snap → Loop → Loop) (k : Nat) : State :=
  { s with
    loop := (f s.snap)^[k] s.loop
    doneLoop := (commandOf i).done s.snap ((f s.snap)^[k] s.loop)
    iter := s.iter + BitVec.ofNat 64 k
    prog := s.prog || (List.range k).any fun j => progressDue s.progInterval (s.iter + BitVec.ofNat 64 (j + 1)) }

theorem afterIterations_zero (hdone : s.doneLoop = (commandOf i).done s.snap s.loop) :
    s.afterIterations i f 0 = s := by
  simp [State.afterIterations, ← hdone]

theorem iterateStep_afterIterations (hf : (commandOf i).iterate = some f) (k : Nat) :
    (s.afterIterations i f k).iterateStep (commandOf i) = s.afterIterations i f (k + 1) := by
  have hiter : s.iter + BitVec.ofNat 64 k + 1#64 = s.iter + BitVec.ofNat 64 (k + 1) := by
    rw [BitVec.add_assoc, BitVec.ofNat_add]
  simp only [iterateStep_of_some hf, State.afterIterations, State.tick, Function.iterate_succ_apply', hiter,
    List.range_succ, List.any_append, List.any_cons, List.any_nil, Bool.or_false, Bool.or_assoc]

/-- As long as done_loop is false, each step of a running command that no abort waits for is an iteration. -/
theorem execSteps_afterIterations (hf : (commandOf i).iterate = some f) (hp : s.phase = .run)
    (ha : s.abortPending = false) (hdone : s.doneLoop = (commandOf i).done s.snap s.loop) (k : Nat)
    (hgoing : ∀ j, j < k → (commandOf i).done s.snap ((f s.snap)^[j] s.loop) = false) :
    execSteps i k s = .next (s.afterIterations i f k) := by
  induction k with
  | zero => rw [afterIterations_zero hdone, execSteps]
  | succ k ih =>
    have hsofar := ih fun j hj => hgoing j (Nat.lt_succ_of_lt hj)
    have hstep : exec i (s.afterIterations i f k) = .next (s.afterIterations i f (k + 1)) := by
      rw [exec_iterate (s := s.afterIterations i f k) hp ha (hgoing k k.lt_succ_self), iterateStep_afterIterations hf]
    rw [execSteps_add i k 1 hsofar, execSteps_succ hstep, execSteps]

/-- What a command's commit leaves after its accept and `k` iterations: the destinations of its rule, ITER, and PROG
where a progress event fell on one of the counts. -/
theorem commit_afterIterations (hp : s.phase = .idle) (ha : s.abortPending = false) (k : Nat) :
    (((s.started i).afterIterations i f k).commitStep (commandOf i)).hideSequencer =
      (commandOf i).commit ((commandOf i).snap s)
        ((f ((commandOf i).snap s))^[k] ((commandOf i).init ((commandOf i).snap s)))
        { s.hideSequencer with
          cmd := encode i, iter := BitVec.ofNat 64 k
          prog := s.prog || (List.range k).any fun j => progressDue s.progInterval (BitVec.ofNat 64 (j + 1))
          done := true, err := .ok } := by
  rw [commitStep_hideSequencer]
  simp only [State.afterIterations, State.hideSequencer, started_snap, started_loop]
  simp only [State.started, State.start, State.latchCommand, hp, ha, BitVec.zero_add]

/-- A progress event falls on one of the first `m` counts exactly when PROG_INTERVAL is one of them. -/
theorem any_progressDue_iff {interval : Word} {m : Nat} (hm : m < 2 ^ 64) :
    ((List.range m).any fun j => progressDue interval (BitVec.ofNat 64 (j + 1))) = true ↔
      interval ≠ 0#32 ∧ interval.toNat ≤ m := by
  have hcount {j : Nat} (hj : j < m) : (BitVec.ofNat 64 (j + 1)).toNat = j + 1 := by
    rw [BitVec.toNat_ofNat, iter_succ_of_lt hj hm]
  simp only [List.any_eq_true, List.mem_range, progressDue_iff]
  constructor
  · rintro ⟨j, hj, hne, hmod⟩
    rw [hcount hj] at hmod
    exact ⟨hne, (Nat.le_of_dvd j.succ_pos (Nat.dvd_of_mod_eq_zero hmod)).trans hj⟩
  · rintro ⟨hne, hle⟩
    have hpos : 0 < interval.toNat := Nat.pos_of_ne_zero fun h => hne (BitVec.eq_of_toNat_eq h)
    have hj : interval.toNat - 1 < m := by omega
    refine ⟨interval.toNat - 1, hj, hne, ?_⟩
    rw [hcount hj, Nat.sub_add_cancel hpos, Nat.mod_self]

/-! ## A command that counts its iterations -/

/-- The loop invariant ties done_loop to the count: the loop is finished at count `m` and at no other. -/
def finishesAt (i : Instr) (n : Snap) (m : Nat) : Prop :=
  ∀ p k, loopInvariant i n p k → ((commandOf i).done n p = true ↔ k = m)

section Counted

variable {m k : Nat} (hf : (commandOf i).iterate = some f) (hm : m < 2 ^ 64)
include hf hm

theorem loopInvariant_iterate {n : Snap} {p : Loop} (hfinish : finishesAt i n m) (h : loopInvariant i n p 0)
    (hk : k ≤ m) : loopInvariant i n ((f n)^[k] p) k := by
  induction k with
  | zero => exact h
  | succ k ih =>
    have hinv := ih (Nat.le_of_succ_le hk)
    have hgoing : (commandOf i).done n ((f n)^[k] p) = false :=
      Bool.eq_false_iff.mpr fun hd => Nat.ne_of_lt hk ((hfinish _ _ hinv).mp hd)
    rw [Function.iterate_succ_apply', ← iter_succ_of_lt hk hm]
    exact loopInvariant_step hinv hgoing hf

variable (hcheck : (commandOf i).check s = .ok) (hfinish : finishesAt i ((commandOf i).snap s) m)
include hcheck hfinish

theorem started_loopInvariant (hk : k ≤ m) :
    loopInvariant i ((commandOf i).snap s)
      ((f ((commandOf i).snap s))^[k] ((commandOf i).init ((commandOf i).snap s))) k :=
  loopInvariant_iterate hf hm hfinish (loopInvariant_init hcheck) hk

theorem started_done_iff (hk : k ≤ m) :
    (commandOf i).done (s.started i).snap ((f (s.started i).snap)^[k] (s.started i).loop) = true ↔ k = m := by
  rw [started_snap, started_loop]
  exact hfinish _ _ (started_loopInvariant hf hm hcheck hfinish hk)

theorem execSteps_started (hk : k ≤ m) :
    execSteps i k (s.started i) = .next ((s.started i).afterIterations i f k) :=
  execSteps_afterIterations hf rfl rfl rfl k fun j hj => Bool.eq_false_iff.mpr fun hd => by
    have hlast := (started_done_iff hf hm hcheck hfinish (hj.le.trans hk)).mp hd
    omega

theorem execSteps_started_commit :
    execSteps i (m + 1) (s.started i) =
      .next (((s.started i).afterIterations i f m).commitStep (commandOf i)) := by
  have hfinished : ((s.started i).afterIterations i f m).doneLoop = true :=
    (started_done_iff hf hm hcheck hfinish le_rfl).mpr rfl
  have hcommit := exec_commit (i := i) (s := (s.started i).afterIterations i f m) rfl rfl hfinished
  rw [execSteps_add i m 1 (execSteps_started hf hm hcheck hfinish le_rfl), execSteps_succ hcommit, execSteps]

/-- A command whose loop is finished at count `m` runs its accept, exactly `m` iterations and its commit, which writes
what the rule makes of loop variables that satisfy the invariant at `m` (spec/10_state.md R43 to R47). -/
theorem counted_run (hp : s.phase = .idle) (ha : s.abortPending = false) :
    ∃ t1 t2 g p, exec i s = .next t1 ∧ execSteps i (m + 1) t1 = .next t2 ∧
      (∀ k, k ≤ m → ∃ u, execSteps i k t1 = .next u ∧ u.phase = .run ∧ u.iter.toNat = k) ∧
      (g = true ↔ s.prog = true ∨ (s.progInterval ≠ 0#32 ∧ s.progInterval.toNat ≤ m)) ∧
      loopInvariant i ((commandOf i).snap s) p m ∧
      t2.hideSequencer =
        (commandOf i).commit ((commandOf i).snap s) p
          { s.hideSequencer with
            cmd := encode i, iter := BitVec.ofNat 64 m, prog := g, done := true, err := .ok } := by
  refine ⟨s.started i, _, _, _, exec_started hp hcheck, execSteps_started_commit hf hm hcheck hfinish,
    fun k hk => ⟨_, execSteps_started hf hm hcheck hfinish hk, rfl, ?_⟩,
    Bool.or_eq_true_iff.trans (or_congr_right (any_progressDue_iff hm)),
    started_loopInvariant hf hm hcheck hfinish le_rfl, commit_afterIterations hp ha m⟩
  show (0#64 + BitVec.ofNat 64 k).toNat = k
  rw [BitVec.zero_add, BitVec.toNat_ofNat, Nat.mod_eq_of_lt (by omega)]

end Counted

end Sys2Proof.Machine
end

section
/-! PROOFS. The statements on the multiplier's commands (spec/40_modarith.md): each commit's value, from the run that
the command's parts give. -/

namespace Sys2Proof.Machine

/-- Settles O17: the commit squares the latched operand. -/
theorem sqrmodComputes : Obligations.SqrmodComputes := by
  intro rd rs1 s hp ha hbase
  simp only [pow_two]
  exact oneStep_run (i := .sqrmod rd rs1) hp ha (requireResidue_eq_ok.mpr hbase) rfl

/-- Settles O18: the commit multiplies the two latched operands. -/
theorem mulmodComputes : Obligations.MulmodComputes := by
  intro rd rs1 rs2 s hp ha h1 h2
  have hcheck : (commandOf (.mulmod rd rs1 rs2)).check s = .ok :=
    firstFailure_pair_eq_ok.mpr ⟨requireResidue_eq_ok.mpr h1, requireResidue_eq_ok.mpr h2⟩
  exact oneStep_run hp ha hcheck rfl

/-- N has the full width of a working register, so one subtraction reduces any value (spec/40_modarith.md R114). -/
theorem wreg_lt_two_mul_modulus (x : Big) : x.toNat < 2 * Config.N :=
  calc x.toNat < 256 ^ 256 := lt_256_pow_iff.mpr (bitlen_toNat_le x)
    _ ≤ 2 * Config.N := by decide

theorem mod_modulus_of_wreg (x : Big) :
    x.toNat % Config.N = if x.toNat < Config.N then x.toNat else x.toNat - Config.N := by
  have hwidth := wreg_lt_two_mul_modulus x
  split
  · rename_i hlt
    exact Nat.mod_eq_of_lt hlt
  · rename_i hge
    rw [Nat.mod_eq_sub_mod (Nat.not_lt.mp hge), Nat.mod_eq_of_lt (by omega)]

/-- Settles O19: REDUCE has no check, and the commit's residue needs at most one subtraction. -/
theorem reduceComputes : Obligations.ReduceComputes := by
  intro rd rs1 s hp ha
  simp only [← mod_modulus_of_wreg]
  exact oneStep_run (i := .reduce rd rs1) hp ha rfl rfl

theorem modexp_finishesAt (rd rs1 rs2 : WReg) (n : Snap) :
    finishesAt (.modexp rd rs1 rs2) n (bitlen n.rs2.toNat) := by
  rintro p k ⟨-, -, rfl, -, -⟩
  exact beq_iff_eq

/-- Once every exponent bit has been taken, the result is the full power. -/
theorem modexp_result {rd rs1 rs2 : WReg} {n : Snap} {p : Loop}
    (h : loopInvariant (.modexp rd rs1 rs2) n p (bitlen n.rs2.toNat)) :
    p.result = n.rs1.toNat ^ n.rs2.toNat % Config.N := by
  obtain ⟨-, -, hj, hresult, -⟩ := h
  rw [hresult, ← hj, Nat.mod_eq_of_lt (bitlen_le_iff.mp le_rfl)]

/-- Settles O21: MODEXP counts the exponent's bits, at most 2048 of them. -/
theorem modexpComputes : Obligations.ModexpComputes := by
  intro rd rs1 rs2 s hp ha hbase
  have hlen : bitlen (s.wreg rs2).toNat < 2 ^ 64 := Nat.lt_of_le_of_lt (bitlen_toNat_le _) (by norm_num)
  obtain ⟨t1, t2, g, p, haccept, hrun, hcount, hprog, hinv, hcommit⟩ :=
    counted_run (i := .modexp rd rs1 rs2) rfl hlen (requireResidue_eq_ok.mpr hbase)
      (modexp_finishesAt rd rs1 rs2 _) hp ha
  have hresult : p.result = (s.wreg rs1).toNat ^ (s.wreg rs2).toNat % Config.N := modexp_result hinv
  refine ⟨t1, t2, g, haccept, hrun, hcount, hprog, ?_⟩
  rw [hcommit, ← hresult]
  rfl

end Sys2Proof.Machine
end

section
/-! PROOFS. The statement on the evaluation engine (spec/41_eval.md): the value that EVAL's commit writes, from the run
of a command that counts its iterations. -/

namespace Sys2Proof.Machine

theorem eval_finishesAt (rd rs1 : WReg) (n : Snap) : finishesAt (.eval rd rs1) n n.t.toNat := by
  rintro p k ⟨-, -, -, rfl, -⟩
  exact beq_iff_eq

/-- Each iteration doubles the exponent, and the loop ends at count T (spec/41_eval.md R140). -/
theorem eval_result {rd rs1 : WReg} {n : Snap} {p : Loop} (h : loopInvariant (.eval rd rs1) n p n.t.toNat) :
    p.acc = n.rs1.toNat ^ 2 ^ n.t.toNat % Config.N := by
  obtain ⟨-, -, -, hcount, hacc⟩ := h
  rw [hacc, hcount]

/-- Settles O22: EVAL counts to the T it latched, which is as wide as ITER, so ITER does not wrap. -/
theorem evalComputes : Obligations.EvalComputes := by
  intro rd rs1 s hp ha ht hbase
  have hcheck : (commandOf (.eval rd rs1)).check s = .ok :=
    firstFailure_pair_eq_ok.mpr ⟨requireIterations_eq_ok.mpr ht, requireResidue_eq_ok.mpr hbase⟩
  obtain ⟨t1, t2, g, p, haccept, hrun, hcount, hprog, hinv, hcommit⟩ :=
    counted_run (i := .eval rd rs1) rfl s.t.isLt hcheck (eval_finishesAt rd rs1 _) hp ha
  have hresult : p.acc = (s.wreg rs1).toNat ^ 2 ^ s.t.toNat % Config.N := eval_result hinv
  have hiter : BitVec.ofNat 64 s.t.toNat = s.t := by rw [BitVec.ofNat_toNat, BitVec.setWidth_eq]
  refine ⟨t1, t2, g, haccept, hrun, hcount, hprog, ?_⟩
  rw [hcommit, hiter, ← hresult]
  rfl

end Sys2Proof.Machine
end

section
/-! PROOFS. The primality predicate of the hash-to-prime engine (spec/42_hash_to_prime.md section 1) against arithmetic:
the exponentiation and the decomposition of n - 1 that a round uses, a round as the strong probable prime test, and the
acceptance of every prime. -/

namespace Sys2Proof.Machine

/-! ## The parts of a round -/

/-- One squaring of the base takes the last bit off the exponent. -/
theorem mul_self_mod_pow_div_two (b e m : Nat) :
    b ^ (e % 2) * (b * b % m) ^ (e / 2) % m = b ^ e % m := by
  rw [Nat.mul_mod, ← Nat.pow_mod, ← Nat.mul_mod, ← pow_two, ← pow_mul, ← pow_add, Nat.mod_add_div]

theorem powModBits_eq {m fuel b e : Nat} (h : e < 2 ^ fuel) : powModBits m fuel b e = b ^ e % m := by
  induction fuel generalizing b e with
  | zero =>
    obtain rfl : e = 0 := by simpa using h
    rw [powModBits, pow_zero]
  | succ fuel ih =>
    have hrest := ih (b := b * b % m) (e := e / 2) (by omega)
    have hstep := mul_self_mod_pow_div_two b e m
    rw [powModBits]
    split
    · subst e
      rw [pow_zero]
    · rw [hrest]
      split
      · rename_i hodd
        rwa [hodd, pow_one, ← Nat.mul_mod_mod] at hstep
      · rename_i heven
        rwa [Nat.mod_two_ne_one.mp heven, pow_zero, one_mul] at hstep

theorem powMod_eq (a d n : Nat) : powMod a d n = a ^ d % n := powModBits_eq (bitlen_le_iff.mp le_rfl)

/-- Settles O28: the bits read are those that the exponent has. -/
theorem powModIsExact : Obligations.PowModIsExact := powMod_eq

theorem splitOdd_eq {d e fuel : Nat} (hd : d % 2 = 1) (h : e ≤ fuel) : splitOdd fuel (d * 2 ^ e) = (d, e) := by
  induction fuel generalizing e with
  | zero =>
    obtain rfl : e = 0 := by omega
    simp [splitOdd]
  | succ fuel ih =>
    cases e with
    | zero => simp [splitOdd, hd]
    | succ e =>
      rw [pow_succ, ← mul_assoc, splitOdd, Nat.mul_mod_left, if_pos rfl, Nat.mul_div_left _ two_pos,
        ih (Nat.le_of_succ_le_succ h)]

theorem squaringsReach_iff {n k x : Nat} :
    squaringsReach n k x = true ↔ ∃ j, j < k ∧ x ^ 2 ^ (j + 1) % n = n - 1 := by
  induction k generalizing x with
  | zero => simp [squaringsReach]
  | succ k ih =>
    have hpow (j : Nat) : (x * x % n) ^ 2 ^ (j + 1) % n = x ^ 2 ^ (j + 2) % n := by
      rw [← Nat.pow_mod, ← pow_two, ← pow_mul, ← pow_succ']
    simp only [squaringsReach, Bool.or_eq_true, beq_iff_eq, ih, hpow, Nat.exists_lt_succ_left, zero_add, pow_one,
      pow_two x]

/-- The exponent of 2 in n - 1 is below the bit length of n. -/
theorem le_bitlen_of_sub_one {n d e : Nat} (hn : 5 ≤ n) (h : n - 1 = d * 2 ^ e) : e ≤ bitlen n := by
  have hd : 0 < d := Nat.pos_of_ne_zero fun hzero => by subst hzero; omega
  have hle : 2 ^ e ≤ d * 2 ^ e := Nat.le_mul_of_pos_left _ hd
  have hlt : n < 2 ^ bitlen n := bitlen_le_iff.mp le_rfl
  exact ((Nat.pow_lt_pow_iff_right (by decide)).mp (show 2 ^ e < 2 ^ bitlen n by omega)).le

/-- Settles O29: n - 1 is even, so the power itself and its s - 1 squarings are the first s repeated squares. -/
theorem millerRabinRoundIsTheStrongTest : Obligations.MillerRabinRoundIsTheStrongTest := by
  intro n i d e hn hodd hsplit hd
  obtain ⟨e, rfl⟩ : ∃ e', e = e' + 1 := Nat.exists_eq_succ_of_ne_zero fun hzero => by subst hzero; omega
  have hds : splitOdd (bitlen n) (n - 1) = (d, e + 1) := by rw [hsplit, splitOdd_eq hd (le_bitlen_of_sub_one hn hsplit)]
  have hpow (j : Nat) : (witness n i ^ d % n) ^ 2 ^ j % n = witness n i ^ (d * 2 ^ j) % n := by
    rw [← Nat.pow_mod, ← pow_mul]
  simp only [roundPass, hds, powMod_eq, Bool.or_eq_true, beq_iff_eq, squaringsReach_iff, hpow, Nat.add_sub_cancel,
    Nat.exists_lt_succ_left, pow_zero, mul_one, or_assoc]

theorem two_le_witness (n i : Nat) : 2 ≤ witness n i := Nat.le_add_left _ _

theorem witness_le {n i : Nat} (h : 5 ≤ n) : witness n i ≤ n - 3 := by
  have hmod := Nat.mod_lt (bytesToInt (sha256 (intBytes n ++ u32BE i))) (show 0 < n - 4 by omega)
  rw [witness]
  omega

/-- Settles O30: the remainder is below n - 4. -/
theorem witnessInRange : Obligations.WitnessInRange := fun n i h => ⟨rfl, two_le_witness n i, witness_le h⟩

/-! ## The predicates by their cases -/

theorem trialReject_eq_false_iff {n : Nat} : trialReject n = false ↔ ∀ p ∈ Config.smallPrimes, p ≠ n → ¬ p ∣ n := by
  simp only [trialReject, List.any_eq_false, Bool.and_eq_true, beq_iff_eq, bne_iff_ne, ← Nat.dvd_iff_mod_eq_zero]
  exact forall₂_congr fun p _ => by rw [not_and', ne_comm]

theorem millerRabin_iff {n : Nat} : millerRabin n = true ↔ ∀ i, i < Config.mrRounds → roundPass n i = true := by
  simp only [millerRabin, List.all_eq_true, List.mem_range]

theorem isPrimeCore_iff {n : Nat} (h : 3 < n) :
    isPrimeCore n = true ↔
      (∀ p ∈ Config.smallPrimes, p ≠ n → ¬ p ∣ n) ∧ ∀ i, i < Config.mrRounds → roundPass n i = true := by
  rw [← trialReject_eq_false_iff, ← millerRabin_iff, isPrimeCore, if_neg (by omega), if_neg (by omega)]
  cases trialReject n <;> simp

theorem isPrime_of_odd {n : Nat} (h : n % 2 = 1) : isPrime n = isPrimeCore n := by
  rw [isPrime]
  split
  · obtain rfl : n = 1 := by omega
    rfl
  · rw [if_neg (by omega), if_neg (by omega)]

theorem isPrime_of_even {n : Nat} (h : 2 < n) (heven : n % 2 = 0) : isPrime n = false := by
  rw [isPrime, if_neg (by omega), if_neg (by omega), if_pos heven]

/-- Settles O48: the predicate on numbers above 3 by its two tests, and the small and the even numbers by their own
cases. -/
theorem primalityPredicateIsTheRule : Obligations.PrimalityPredicateIsTheRule :=
  ⟨fun _ => isPrimeCore_iff, rfl, rfl, rfl, rfl, rfl, fun _ => isPrime_of_even, fun _ => isPrime_of_odd⟩

/-! ## Primes -/

/-- In a field, an element whose power to 2^e is 1 is 1 itself or has -1 among its first e repeated squares. -/
theorem eq_one_or_exists_pow_eq_neg_one {K : Type*} [Field K] {x : K} {e : Nat} (h : x ^ 2 ^ e = 1) :
    x = 1 ∨ ∃ j, j < e ∧ x ^ 2 ^ j = -1 := by
  induction e with
  | zero => exact .inl (by simpa using h)
  | succ e ih =>
    rw [pow_succ, pow_mul] at h
    rcases sq_eq_one_iff.mp h with hone | hneg
    · exact (ih hone).imp_right fun ⟨j, hj, hpow⟩ => ⟨j, Nat.lt_succ_of_lt hj, hpow⟩
    · exact .inr ⟨e, e.lt_succ_self, hneg⟩

/-- A prime passes the strong test to every base that it does not divide. -/
theorem strongTest_of_prime {n a d e : Nat} (hn : Nat.Prime n) (ha : ¬ n ∣ a) (h : n - 1 = d * 2 ^ e) :
    a ^ d % n = 1 ∨ ∃ j, j < e ∧ a ^ (d * 2 ^ j) % n = n - 1 := by
  have hfact : Fact n.Prime := ⟨hn⟩
  have hne : (a : ZMod n) ≠ 0 := fun hzero => ha ((ZMod.natCast_eq_zero_iff a n).mp hzero)
  have hfermat : ((a : ZMod n) ^ d) ^ 2 ^ e = 1 := by
    rw [← pow_mul, ← h, ZMod.pow_card_sub_one_eq_one hne]
  have hlast : ((n - 1 : Nat) : ZMod n) = -1 := by simp [Nat.cast_sub hn.one_le]
  refine (eq_one_or_exists_pow_eq_neg_one hfermat).imp (fun hone => ?_) fun ⟨j, hj, hneg⟩ => ⟨j, hj, ?_⟩
  · have hmod := (ZMod.natCast_eq_natCast_iff' (a ^ d) 1 n).mp (by push_cast; exact hone)
    rwa [Nat.mod_eq_of_lt hn.one_lt] at hmod
  · have hmod := (ZMod.natCast_eq_natCast_iff' (a ^ (d * 2 ^ j)) (n - 1) n).mp
      (by rw [hlast, Nat.cast_pow, pow_mul]; exact hneg)
    rwa [Nat.mod_eq_of_lt (Nat.sub_lt hn.pos one_pos)] at hmod

theorem roundPass_of_prime {n : Nat} (hn : Nat.Prime n) (h : 5 ≤ n) (i : Nat) : roundPass n i = true := by
  have hodd : n % 2 = 1 := hn.eq_two_or_odd.resolve_left (by omega)
  obtain ⟨e, d, hd, hsplit⟩ := Nat.exists_eq_two_pow_mul_odd (show n - 1 ≠ 0 by omega)
  rw [mul_comm] at hsplit
  have hlow := two_le_witness n i
  have hhigh := witness_le (i := i) h
  have hndvd : ¬ n ∣ witness n i := Nat.not_dvd_of_pos_of_lt (by omega) (by omega)
  exact (millerRabinRoundIsTheStrongTest n i d e h hodd hsplit (Nat.odd_iff.mp hd)).mpr
    (strongTest_of_prime hn hndvd hsplit)

theorem isPrimeCore_of_prime {n : Nat} (hn : Nat.Prime n) (h : n ≠ 2) : isPrimeCore n = true := by
  by_cases h3 : n = 3
  · subst h3
    rfl
  · have hodd : n % 2 = 1 := hn.eq_two_or_odd.resolve_left h
    have htwo := hn.two_le
    refine (isPrimeCore_iff (by omega)).mpr ⟨fun p hp hne hdvd => ?_, fun i _ => roundPass_of_prime hn (by omega) i⟩
    have hone : p = 1 := (hn.eq_one_or_self_of_dvd p hdvd).resolve_right hne
    subst hone
    exact absurd hp (by decide)

/-- Settles O31: no number of the table but itself divides a prime, and a prime passes the strong test to every
witness. -/
theorem primesAreNeverRejected : Obligations.PrimesAreNeverRejected := by
  intro n hn
  refine ⟨?_, isPrimeCore_of_prime hn⟩
  rcases hn.eq_two_or_odd with rfl | hodd
  · rfl
  · rw [isPrime_of_odd hodd]
    exact isPrimeCore_of_prime hn (by omega)

/-! ## H2PY's first candidate -/

theorem bytesToInt_append (a b : List Byte) :
    bytesToInt (a ++ b) = bytesToInt a * 256 ^ b.length + bytesToInt b := by
  induction b using List.reverseRecOn with
  | nil => simp
  | append_singleton b x ih =>
    rw [← List.append_assoc, bytesToInt_concat, ih, bytesToInt_concat, List.length_append, List.length_singleton]
    ring

/-- The first bytes of a string are the quotient of its value by the place of the rest. -/
theorem bytesToInt_take (b : List Byte) (k : Nat) : bytesToInt (b.take k) = bytesToInt b / 256 ^ (b.length - k) := by
  have hrest : bytesToInt (b.drop k) < 256 ^ (b.length - k) := by simpa using bytesToInt_lt (b.drop k)
  have happend := bytesToInt_append (b.take k) (b.drop k)
  rw [List.take_append_drop, List.length_drop] at happend
  rw [happend, Nat.add_comm, Nat.add_mul_div_right _ _ (by positivity), Nat.div_eq_of_lt hrest, zero_add]

theorem prefixCandidate_eq (v : Nat) : prefixCandidate v = v / 256 ^ (minBytes v - 32) := by
  rw [prefixCandidate, bytesToInt_take, bytesToInt_intBytes, intBytes, intToBytes_length, Config.seedPrefix]

/-- Settles O49: the leading bytes are the quotient by the place of the others, and a value below 2^256 has no others. -/
theorem firstCandidateIsTheLeadingBytes : Obligations.FirstCandidateIsTheLeadingBytes := by
  refine ⟨fun v hv => ?_, fun v _ => prefixCandidate_eq v, fun v hv => ⟨pow_minBytes_pred_le hv, lt_256_pow_minBytes v⟩⟩
  have hbits : bitlen v ≤ 256 := bitlen_le_iff.mpr hv
  have hshort : minBytes v - 32 = 0 := by
    rw [minBytes]
    omega
  rw [prefixCandidate_eq, hshort, pow_zero, Nat.div_one]

end Sys2Proof.Machine
end

section
/-! PROOFS. The statements on the hash-to-prime engine's commands (spec/42_hash_to_prime.md R156 to R162). The search is
followed candidate by candidate, and not by the count in ITER, which is taken modulo 2^64; it ends since the bound of
R159 is itself accepted. -/

namespace Sys2Proof.Machine

variable {s : State} {i : Instr}

/-- Settles O20: PTEST has no check and no iteration, and its commit writes the verdict on the latched L. -/
theorem ptestComputes : Obligations.PtestComputes := fun _ hp ha => oneStep_run (i := .ptest) hp ha rfl rfl

/-! ## The search's loop -/

/-- A rejected candidate is followed by the next odd number (spec/42_hash_to_prime.md R158). -/
theorem searchStep_of_rejected {n : Snap} {p : Loop} (h : isPrimeCore p.cand = false) :
    searchStep n p = { p with cand := p.cand + 2 } := by simp [searchStep, h]

theorem searchStep_of_accepted {n : Snap} {p : Loop} (h : isPrimeCore p.cand = true) :
    searchStep n p = { p with found := true } := by simp [searchStep, h]

theorem searchStep_iterate {n : Snap} {p : Loop} {k : Nat}
    (hrejected : ∀ j, j < k → isPrimeCore (p.cand + 2 * j) = false) :
    (searchStep n)^[k] p = { p with cand := p.cand + 2 * k } := by
  induction k with
  | zero => rfl
  | succ k ih =>
    rw [Function.iterate_succ_apply', ih fun j hj => hrejected j (Nat.lt_succ_of_lt hj),
      searchStep_of_rejected (hrejected k k.lt_succ_self)]
    simp only [mul_add_one, add_assoc]

/-- The loop variables once the candidate that follows `k` rejected ones has been accepted. -/
theorem searchStep_iterate_accepted {n : Snap} {p : Loop} {k : Nat}
    (hrejected : ∀ j, j < k → isPrimeCore (p.cand + 2 * j) = false)
    (haccepted : isPrimeCore (p.cand + 2 * k) = true) :
    (searchStep n)^[k + 1] p = { p with cand := p.cand + 2 * k, found := true } := by
  rw [Function.iterate_succ_apply', searchStep_iterate hrejected, searchStep_of_accepted haccepted]

/-- The search ends: 2^256 + 297, which it cannot pass, is accepted (spec/42_hash_to_prime.md R159). -/
theorem exists_first_accepted {c : Nat} (hc : c < 2 ^ 256) :
    ∃ k, isPrimeCore ((c ||| 1) + 2 * k) = true ∧ (∀ j, j < k → isPrimeCore ((c ||| 1) + 2 * j) = false) ∧
      (c ||| 1) + 2 * k ≤ 2 ^ 256 + 297 := by
  obtain ⟨m, hm⟩ : ∃ m, (c ||| 1) + 2 * m = 2 ^ 256 + 297 :=
    ⟨2 ^ 255 + 148 - c / 2, by rw [or_one_eq]; omega⟩
  have hexists : ∃ k, isPrimeCore ((c ||| 1) + 2 * k) = true := ⟨m, hm ▸ isPrimeCore_searchBound⟩
  have hle : Nat.find hexists ≤ m := Nat.find_min' hexists (hm ▸ isPrimeCore_searchBound)
  exact ⟨Nat.find hexists, Nat.find_spec hexists,
    fun j hj => Bool.eq_false_iff.mpr (Nat.find_min hexists hj), by omega⟩

/-! ## The run of a search -/

/-- Command `i` with the latches `n` is a search from the initial candidate `c` on (spec/42_hash_to_prime.md R158). -/
structure SearchesFrom (i : Instr) (n : Snap) (c : Nat) : Prop where
  check : ∀ s, (commandOf i).check s = .ok
  init : (commandOf i).init n = searchInit c
  done : ∀ p, (commandOf i).done n p = p.found
  iterate : (commandOf i).iterate = some searchStep
  commit : ∀ p s, (commandOf i).commit n p s = searchCommit p s
  initial_lt : c < 2 ^ 256

theorem h2py_searchesFrom (rs1 : WReg) (n : Snap) :
    SearchesFrom (.h2py rs1) n (prefixCandidate n.rs1.toNat) :=
  ⟨fun _ => rfl, rfl, fun _ => rfl, rfl, fun _ _ => rfl, prefixCandidate_lt _⟩

theorem h2ps_searchesFrom (n : Snap) : SearchesFrom .h2ps n n.seed.toNat :=
  ⟨fun _ => rfl, rfl, fun _ => rfl, rfl, fun _ _ => rfl, n.seed.isLt⟩

/-- A running command whose loop is finished after `m` iterations, and not before, commits at the step after them. -/
theorem execSteps_commit {f : Snap → Loop → Loop} {m : Nat} (hf : (commandOf i).iterate = some f)
    (hp : s.phase = .run) (ha : s.abortPending = false) (hdone : s.doneLoop = (commandOf i).done s.snap s.loop)
    (hgoing : ∀ j, j < m → (commandOf i).done s.snap ((f s.snap)^[j] s.loop) = false)
    (hfinished : (commandOf i).done s.snap ((f s.snap)^[m] s.loop) = true) :
    execSteps i (m + 1) s = .next ((s.afterIterations i f m).commitStep (commandOf i)) := by
  have hcommit := exec_commit (i := i) (s := s.afterIterations i f m) hp ha hfinished
  rw [execSteps_add i m 1 (execSteps_afterIterations hf hp ha hdone m hgoing), execSteps_succ hcommit, execSteps]

/-- The iterations of a search whose first accepted candidate follows `k` rejected ones, and its commit. -/
theorem execSteps_search {c k : Nat} (h : SearchesFrom i ((commandOf i).snap s) c)
    (haccepted : isPrimeCore ((c ||| 1) + 2 * k) = true)
    (hrejected : ∀ j, j < k → isPrimeCore ((c ||| 1) + 2 * j) = false) :
    execSteps i (k + 2) (s.started i) =
      .next (((s.started i).afterIterations i searchStep (k + 1)).commitStep (commandOf i)) := by
  rw [← searchInit_cand] at haccepted hrejected
  refine execSteps_commit h.iterate rfl rfl rfl (fun j hj => ?_) ?_
  · rw [started_snap, started_loop, h.init, h.done,
      searchStep_iterate fun l hl => hrejected l (hl.trans_le (Nat.le_of_lt_succ hj))]
    rfl
  · rw [started_snap, started_loop, h.init, h.done, searchStep_iterate_accepted hrejected haccepted]

/-- A progress event falls on one of the first `k + 1` counts, each taken modulo 2^64 (spec/10_state.md R47). -/
theorem any_progressDue_iff_exists {interval : Word} {k : Nat} :
    ((List.range (k + 1)).any fun j => progressDue interval (BitVec.ofNat 64 (j + 1))) = true ↔
      ∃ j, j ≤ k ∧ interval ≠ 0#32 ∧ (BitVec.ofNat 64 (j + 1)).toNat % interval.toNat = 0 := by
  simp only [List.any_eq_true, List.mem_range, Nat.lt_succ_iff, progressDue_iff]

/-- A search writes to L the first accepted odd number from its initial candidate on. -/
theorem search_run {c : Nat} (h : SearchesFrom i ((commandOf i).snap s) c) (hp : s.phase = .idle)
    (ha : s.abortPending = false) :
    ∃ t1 t2 g k, exec i s = .next t1 ∧ execSteps i (k + 2) t1 = .next t2 ∧
      (let start := c ||| 1
       isPrimeCore (start + 2 * k) = true ∧ (∀ j, j < k → isPrimeCore (start + 2 * j) = false) ∧
       start + 2 * k ≤ 2 ^ 256 + 297 ∧
       (g = true ↔ s.prog = true ∨ ∃ j, j ≤ k ∧ s.progInterval ≠ 0#32 ∧
         (BitVec.ofNat 64 (j + 1)).toNat % s.progInterval.toNat = 0) ∧
       t2.hideSequencer =
        { s.hideSequencer with
          l := BitVec.ofNat 288 (start + 2 * k), prime := true
          cmd := encode i, iter := BitVec.ofNat 64 (k + 1), prog := g, done := true, err := .ok }) := by
  obtain ⟨k, haccepted, hrejected, hbound⟩ := exists_first_accepted h.initial_lt
  refine ⟨s.started i, _, _, k, exec_started hp (h.check s), execSteps_search h haccepted hrejected,
    haccepted, hrejected, hbound, Bool.or_eq_true_iff.trans (or_congr_right any_progressDue_iff_exists), ?_⟩
  rw [← searchInit_cand] at haccepted hrejected ⊢
  rw [commit_afterIterations hp ha, h.commit, h.init, searchStep_iterate_accepted hrejected haccepted]
  rfl

/-- Settles O24: H2PY searches from the candidate that the leading bytes of its latched operand give. -/
theorem h2pyComputes : Obligations.H2pyComputes := fun rs1 _ hp ha => search_run (h2py_searchesFrom rs1 _) hp ha

/-- Settles O25: H2PS searches from the SEED that it latched. -/
theorem h2psComputes : Obligations.H2psComputes := fun _ hp ha => search_run (h2ps_searchesFrom _) hp ha

end Sys2Proof.Machine
end

section
/-! PROOFS. The statements on the divider and the proof engine (spec/43_prove.md): what one divider step gives, the
values that PROVE's commit writes, from the run of a command that counts its iterations, and the identity that ties them
to EVAL's value. -/

namespace Sys2Proof.Machine

variable {s : State} {rd rs1 : WReg}

/-! ## The divider step -/

/-- Settles O27: the doubled remainder is below 2L, and what the step leaves is its remainder by L. -/
theorem divstepIsExact : Obligations.DivstepIsExact := by
  intro r l hl hr
  refine ⟨rfl, Nat.le_of_lt_succ (divstep_bit_lt_two hr), divstep_snd r l, ?_⟩
  rw [divstep_snd]
  exact Nat.mod_lt _ (by omega)

/-! ## PROVE -/

theorem prove_finishesAt (rd rs1 : WReg) (n : Snap) : finishesAt (.prove rd rs1) n n.t.toNat := by
  rintro p k ⟨-, -, -, -, rfl, -, -⟩
  exact beq_iff_eq

/-- At count T the loop variables hold the remainder of 2^T by L and the power by its quotient
(spec/43_prove.md R181). -/
theorem prove_result {n : Snap} {p : Loop} (h : loopInvariant (.prove rd rs1) n p n.t.toNat) :
    p.remainder = 2 ^ n.t.toNat % n.l.toNat ∧
      p.proof = n.rs1.toNat ^ (2 ^ n.t.toNat / n.l.toNat) % Config.N := by
  obtain ⟨-, -, -, -, hcount, hremainder, hproof⟩ := h
  rw [hcount]
  exact ⟨hremainder, hproof⟩

/-- Settles O23: PROVE counts to the T it latched, which is as wide as ITER, so ITER does not wrap. -/
theorem proveComputes : Obligations.ProveComputes := by
  intro rd rs1 s hp ha ht hl hbase
  have hcheck : (commandOf (.prove rd rs1)).check s = .ok :=
    firstFailure_triple_eq_ok.mpr
      ⟨requireIterations_eq_ok.mpr ht, requireDivisor_eq_ok.mpr hl, requireResidue_eq_ok.mpr hbase⟩
  obtain ⟨t1, t2, g, p, haccept, hrun, hcount, hprog, hinv, hcommit⟩ :=
    counted_run (i := .prove rd rs1) rfl s.t.isLt hcheck (prove_finishesAt rd rs1 _) hp ha
  obtain ⟨hremainder, hproof⟩ : p.remainder = 2 ^ s.t.toNat % s.l.toNat ∧
      p.proof = (s.wreg rs1).toNat ^ (2 ^ s.t.toNat / s.l.toNat) % Config.N := prove_result hinv
  have hiter : BitVec.ofNat 64 s.t.toNat = s.t := by rw [BitVec.ofNat_toNat, BitVec.setWidth_eq]
  refine ⟨t1, t2, g, haccept, hrun, hcount, hprog, ?_⟩
  rw [hcommit, hiter, ← hremainder, ← hproof]
  rfl

/-! ## The values that a completed command leaves -/

theorem toNat_ofNat_residue (v : Nat) : (BitVec.ofNat 2048 (v % Config.N)).toNat = v % Config.N := by
  have hlt : v % Config.N < 256 ^ 256 := (Nat.mod_lt v (Nat.zero_lt_of_lt one_lt_modulus)).trans modulus_lt
  exact toNat_ofNat_of_bitlen (lt_256_pow_iff.mp hlt)

theorem toNat_ofNat_mod_toNat {m : Nat} (v : Nat) {l : BitVec m} (hl : 0 < l.toNat) :
    (BitVec.ofNat m (v % l.toNat)).toNat = v % l.toNat :=
  toNat_ofNat_of_bitlen (bitlen_le_iff.mpr ((Nat.mod_lt v hl).trans l.isLt))

/-- A register written as a whole reads as what was written. -/
theorem wreg_of_w_eq_set {u : State} {w : Vector Big 8} {v : Big} (h : u.w = w.set rd v) : u.wreg rd = v := by
  simp [State.wreg, h]

/-- EVAL's accept, iterations and commit, and the value it leaves (spec/41_eval.md R140). -/
theorem eval_leaves (hp : s.phase = .idle) (ha : s.abortPending = false) (ht : 1 ≤ s.t.toNat)
    (hbase : (s.wreg rs1).toNat < Config.N) :
    ∃ a, execSteps (.eval rd rs1) (s.t.toNat + 2) s = .next a ∧ a.err = .ok ∧
      (a.wreg rd).toNat = (s.wreg rs1).toNat ^ 2 ^ s.t.toNat % Config.N := by
  obtain ⟨t1, a, g, haccept, hrun, -, -, hstate⟩ := evalComputes rd rs1 s hp ha ht hbase
  have hvalue := wreg_of_w_eq_set (congrArg State.w hstate)
  refine ⟨a, (execSteps_succ haccept).trans hrun, congrArg State.err hstate, ?_⟩
  rw [← State.hideSequencer_wreg, hvalue, toNat_ofNat_residue]

/-- PROVE's accept, iterations and commit, and the two values it leaves (spec/43_prove.md R181). -/
theorem prove_leaves (hp : s.phase = .idle) (ha : s.abortPending = false) (ht : 1 ≤ s.t.toNat) (hl : 2 ≤ s.l.toNat)
    (hbase : (s.wreg rs1).toNat < Config.N) :
    ∃ b, execSteps (.prove rd rs1) (s.t.toNat + 2) s = .next b ∧ b.err = .ok ∧
      (b.wreg rd).toNat = (s.wreg rs1).toNat ^ (2 ^ s.t.toNat / s.l.toNat) % Config.N ∧
      b.rem.toNat = 2 ^ s.t.toNat % s.l.toNat := by
  obtain ⟨t1, b, g, haccept, hrun, -, -, hstate⟩ := proveComputes rd rs1 s hp ha ht hl hbase
  have hvalue := wreg_of_w_eq_set (congrArg State.w hstate)
  have hrem : b.rem = BitVec.ofNat 288 (2 ^ s.t.toNat % s.l.toNat) := congrArg State.rem hstate
  refine ⟨b, (execSteps_succ haccept).trans hrun, congrArg State.err hstate, ?_, ?_⟩
  · rw [← State.hideSequencer_wreg, hvalue, toNat_ofNat_residue]
  · rw [hrem, toNat_ofNat_mod_toNat _ (by omega)]

/-! ## The verification identity -/

/-- A power is put together again from the powers by quotient and remainder of its exponent (spec/43_prove.md R183). -/
theorem pow_quotient_mul_pow_remainder_mod (x e l n : Nat) :
    ((x ^ (e / l) % n) ^ l * x ^ (e % l)) % n = x ^ e % n :=
  calc ((x ^ (e / l) % n) ^ l * x ^ (e % l)) % n
      = (x ^ (e / l)) ^ l * x ^ (e % l) % n := (((Nat.mod_modEq _ n).pow l).mul_right _)
    _ = x ^ e % n := by rw [← pow_mul, ← pow_add, Nat.div_add_mod']

/-- Settles O26: EVAL's exponent is L times the quotient of PROVE's power, plus the remainder in REM. -/
theorem proofOfEvaluationVerifies : Obligations.ProofOfEvaluationVerifies := by
  intro rdy xe rdp xp se sp hpe hae hpp hap ht hx hpos hl hbase
  obtain ⟨a, hruna, herra, hy⟩ := eval_leaves (rd := rdy) hpe hae hpos hbase
  obtain ⟨b, hrunb, herrb, hproof, hrem⟩ :=
    prove_leaves (rd := rdp) (rs1 := xp) hpp hap (by rwa [ht]) hl (by rwa [hx])
  refine ⟨a, b, hruna, hrunb, herra, herrb, ?_⟩
  rw [hproof, hrem, pow_quotient_mul_pow_remainder_mod, hx, ht, hy]

end Sys2Proof.Machine
end

section
/-! PROOFS. The statements on exceptional events (spec/60_exceptions.md): the checks at accept and the code they report
(R202), the transactions that the port refuses (R205), and that no step stops once the core has been reset (R208). -/

namespace Sys2Proof.Machine

variable {s t : State} {a : Offset} {n : Nat}

/-! ## The checks at accept -/

/-- Settles O8: by the check table a word at CMD of an idle core completes with the code of its first failure, or its
command starts. -/
theorem issuedWordIsCheckedInOrder : Obligations.IssuedWordIsCheckedInOrder := by
  intro s c rest hr hp hs
  obtain ⟨hfail, hstart⟩ := step_issue_checkWord hr hp hs
  by_cases hok : checkWord c s = .ok
  · obtain ⟨i, -, hstep⟩ := hstart hok
    exact ⟨_, hstep, hok.symm, rfl, fun _ => ⟨rfl, rfl⟩, fun hne => absurd hok hne⟩
  · exact ⟨_, hfail hok, rfl, rfl, fun h => absurd h hok, fun _ => ⟨rfl, rfl⟩⟩

/-- Settles O9: the accept latches the word and completes at once, and both leave what an idle core without an abort
request holds. -/
theorem failedCheckIsPrecise : Obligations.FailedCheckIsPrecise := by
  intro i s hp ha hfail
  rw [checkWord_encode] at hfail ⊢
  rw [exec_idle hp, accept_of_check_ne hfail]
  simp only [State.complete, State.latchCommand, hp, ha]

/-! ## The port rules of a write, register by register -/

/-- The offsets of read-only registers are the windows of ID, ITER, REM and N (spec/20_memory.md R61, R67). -/
theorem exists_covers_of_readOnlyOffset (h : readOnlyOffset a) :
    ∃ r : PortReg, r.readOnly = true ∧ r.covers a = true := by
  simp only [covers_iff]
  rcases h with hhigh | ⟨hlow, hhigh⟩ | ⟨hlow, hhigh⟩ | ⟨hlow, hhigh⟩
  · exact ⟨.id, rfl, Nat.zero_le _, Nat.lt_succ_of_le hhigh⟩
  · exact ⟨.iter, rfl, hlow, Nat.lt_succ_of_le hhigh⟩
  · exact ⟨.rem, rfl, hlow, Nat.lt_succ_of_le hhigh⟩
  · exact ⟨.n, rfl, hlow, Nat.lt_succ_of_le hhigh⟩

/-- The registers that a write reaches while a command runs are the eight bytes of CTRL and STATUS
(spec/20_memory.md R61, R66). -/
theorem offset_of_alwaysWritable {r : PortReg} (hfield : r.alwaysWritable = true) (hcovers : r.covers a = true) :
    0x004 ≤ a.toNat ∧ a.toNat ≤ 0x00B := by
  obtain ⟨hlow, hhigh⟩ := covers_iff.mp hcovers
  cases r with
  | ctrl => exact ⟨hlow, (Nat.le_of_lt_succ hhigh).trans (by decide)⟩
  | status => exact ⟨le_trans (by decide) hlow, Nat.le_of_lt_succ hhigh⟩
  | _ => cases hfield

/-- A write that has a target breaks no rule of the port. -/
theorem writeTarget_of_broken (h : brokenWrite s a n) : s.writeTarget a n = none := by
  cases htarget : s.writeTarget a n with
  | none => rfl
  | some target =>
    exfalso
    obtain ⟨r, k⟩ := target
    obtain ⟨hlegal, hloc, hcmd, hro, hbusy⟩ := writeTarget_some htarget
    obtain ⟨hcovers, -⟩ := covers_of_locate hloc
    rcases h with hunlawful | ⟨hlow, hhigh, hnarrow⟩ | hreserved | hreadOnly | ⟨hrun, hother⟩
    · exact hunlawful (legalAccess_iff.mp hlegal)
    · have hcmdCovers : PortReg.cmd.covers a = true := covers_iff.mpr ⟨hlow, Nat.lt_succ_of_le hhigh⟩
      exact hnarrow (hcmd (covers_unique hcovers hcmdCovers))
    · cases hloc.symm.trans (locate_eq_none_iff.mpr hreserved)
    · obtain ⟨q, hq, hqcovers⟩ := exists_covers_of_readOnlyOffset hreadOnly
      rw [covers_unique hcovers hqcovers, hq] at hro
      cases hro
    · exact hother (offset_of_alwaysWritable (hbusy hrun) hcovers)

/-- Settles O38: a write that breaks a rule has no target and a read that breaks one has no window, and the port then
answers ERROR alone. -/
theorem brokenPortRuleChangesNothing : Obligations.BrokenPortRuleChangesNothing := by
  constructor
  · intro s a n v rest hr hs hbroken
    have htarget : (s.withSched rest).writeTarget a n = none := writeTarget_of_broken hbroken
    rw [step_write hr hs, hostWrite_refused htarget]
    rfl
  · intro s a n rest hr hs hbroken
    rw [step_read hr hs, hostRead_refused hbroken]
    rfl

/-! ## Progress after a reset -/

theorem issueCommand_next (c : Word) (s : State) : ∃ t, issueCommand c s = .next t := by
  cases h : decode c with
  | ok i => simpa only [issueCommand, h] using exec_next i s
  | illegal why => exact ⟨(s.latchCommand c).complete .eill, by simp only [issueCommand, h]⟩

theorem hostWrite_next (a : Offset) (n : Nat) (v : Word) (s : State) : ∃ t, hostWrite a n v s = .next t := by
  cases htarget : s.writeTarget a n with
  | none => exact ⟨_, hostWrite_refused htarget⟩
  | some target =>
    obtain ⟨r, k⟩ := target
    by_cases hr : r = .cmd
    · subst hr
      rw [hostWrite_cmd htarget]
      exact issueCommand_next v _
    · exact ⟨_, hostWrite_store hr htarget⟩

/-- Every move answers a next state, unless no reset has come yet. -/
theorem act_next (m : Action) (h : s.rst ≠ .unset) : ∃ t, act m s = .next t := by
  cases hr : s.rst with
  | unset => exact absurd hr h
  | held =>
    obtain ⟨hread, hwrite⟩ := act_host_held hr
    cases m with
    | read a n => exact ⟨_, hread a n⟩
    | write a n v => exact ⟨_, hwrite a n v⟩
    | sequencer => exact ⟨_, act_sequencer_held (by simp [hr])⟩
    | resetLow | resetHigh => exact ⟨_, rfl⟩
  | released =>
    cases m with
    | read a n => exact ⟨_, act_read hr a n⟩
    | write a n v => simpa only [act_write hr] using hostWrite_next a n v s
    | sequencer => exact ⟨_, act_sequencer hr⟩
    | resetLow | resetHigh => exact ⟨_, rfl⟩

theorem step_next (h : s.rst ≠ .unset) : ∃ t, step s = .next t := by
  cases hs : s.sched with
  | nil => simpa only [step_nil hs] using act_next .sequencer h
  | cons m rest => simpa only [step_cons hs] using act_next (s := s.withSched rest) m h

theorem issueCommand_rst {c : Word} (h : issueCommand c s = .next t) : t.rst = s.rst := by
  rcases issueCommand_cases h with ⟨i, -, hexec⟩ | ⟨why, -, rfl⟩
  · obtain ⟨-, -, -, -, -, hrst, -⟩ := exec_frame hexec
    exact hrst
  · rfl

/-- No move takes the core back to before its first reset: the line moves at its edges only. -/
theorem Move.rst_ne_unset {m : Action} (hmove : Move s m t) (h : s.rst ≠ .unset) : t.rst ≠ .unset := by
  cases hmove with
  | fall => exact nofun
  | rise => exact nofun
  | nothing => exact h
  | answered => exact h
  | sequencer _ _ hexec =>
    obtain ⟨-, -, -, -, -, hrst, -⟩ := exec_frame hexec
    exact hrst ▸ h
  | issue _ _ _ _ _ hissue => exact issueCommand_rst hissue ▸ h
  | store _ _ _ r k bs =>
    obtain ⟨_, _, _, _, _, _, _, _, _, _, hframe⟩ := storeBytes_frame (s.answer (.write .okay)) r k bs
    exact hframe ▸ h

/-- Settles O44: of all moves only a host transaction before the first reset faults, and no step leads back there. -/
theorem noStepStopsAfterReset : Obligations.NoStepStopsAfterReset := by
  intro s h
  obtain ⟨t, hstep⟩ := step_next h
  obtain ⟨m, rest, -, hmove⟩ := step_move hstep
  exact ⟨t, hstep, hmove.rst_ne_unset h⟩

end Sys2Proof.Machine
end

section
/-! PROOFS. The statements on reset (spec/70_reset_and_hazards.md): the table of R230, a reset at any time, and the
faults before the first one (R231). While rst_n is low every move but its rise leaves the core as it is, but for the
schedule and the lost transaction's response (log entry 14); the rise then gives the reset state. -/

namespace Sys2Proof.Machine

variable {s : State} {m : Action} {rest : List Action}

/-! ## The state after reset -/

/-- Settles O46: the core is idle after reset and holds no abort request. -/
theorem invariantHoldsAtReset : Obligations.InvariantHoldsAtReset := Inv_reset

@[simp] theorem reset_wreg (r : WReg) : State.reset.wreg r = 0#2048 := Vector.getElem_replicate r.isLt

/-- Settles O42: row by row; only the rows of W0 to W7 are a family. -/
theorem resetStateHoldsTheTable : Obligations.ResetStateHoldsTheTable :=
  ⟨reset_wreg, rfl, rfl, rfl, rfl, rfl, rfl, rfl, rfl, rfl, rfl, rfl, rfl, rfl, rfl⟩

/-- The table says nothing of the moves to come. -/
theorem atReset_withSched : (s.withSched rest).atReset ↔ s.atReset := Iff.rfl

/-! ## Before the first reset -/

theorem act_host_unset (h : s.rst = .unset) :
    (∀ a n, act (.read a n) s = .fault .beforeReset) ∧ ∀ a n v, act (.write a n v) s = .fault .beforeReset := by
  refine ⟨fun a n => ?_, fun a n v => ?_⟩ <;> simp only [act, h]

/-- Settles O45: the step is the host's transaction, which faults while no reset has come. -/
theorem hostTransactionBeforeResetFaults : Obligations.HostTransactionBeforeResetFaults := by
  intro s m rest hr hs hhost
  obtain ⟨hread, hwrite⟩ := act_host_unset (s := s.withSched rest) hr
  rw [step_cons hs]
  rcases hhost with ⟨a, n, rfl⟩ | ⟨a, n, v, rfl⟩
  · exact hread a n
  · exact hwrite a n v

/-! ## While rst_n is low -/

/-- A held core does nothing but answer `none` to the transactions it loses, until the line rises. -/
theorem act_held (h : s.rst = .held) (hm : m ≠ .resetHigh) : ∃ resp, act m s = .next (s.answer resp) := by
  obtain ⟨hread, hwrite⟩ := act_host_held h
  cases m with
  | read a n => exact ⟨_, hread a n⟩
  | write a n v => exact ⟨_, hwrite a n v⟩
  | sequencer => exact ⟨s.resp, act_sequencer_held (by simp [h])⟩
  | resetLow =>
    have hsame : { s with rst := .held } = s.answer s.resp := by rw [State.answer, ← h]
    exact ⟨s.resp, congrArg _ hsame⟩
  | resetHigh => exact absurd rfl hm

theorem step_resetLow (hs : s.sched = .resetLow :: rest) : step s = .next { s.withSched rest with rst := .held } :=
  step_cons hs

theorem step_resetHigh (h : s.rst = .held) (hs : s.sched = .resetHigh :: rest) :
    step s = .next (State.reset.withSched rest) :=
  (step_cons hs).trans (congrArg _ (if_pos h))

/-- Whatever a held core is asked until its line rises, the rise gives the reset state. -/
theorem run_held (moves : List Action) (h : s.rst = .held) (hs : s.sched = moves ++ .resetHigh :: rest)
    (hmoves : ∀ m ∈ moves, m ≠ .resetHigh) :
    Sys2Proof.core.run (moves.length + 1) s = .next (State.reset.withSched rest) := by
  induction moves generalizing s with
  | nil => exact run_succ (step_resetHigh h hs)
  | cons m moves ih =>
    obtain ⟨hm, hrest⟩ := List.forall_mem_cons.mp hmoves
    obtain ⟨resp, hact⟩ := act_held (s := s.withSched (moves ++ .resetHigh :: rest)) h hm
    have hstep := (step_cons hs).trans hact
    rw [List.length_cons, run_succ hstep]
    exact ih h rfl hrest

/-- Settles O43: the fall holds the core, which then waits for the rise; held, it loses its own steps and the host's
transactions. -/
theorem resetPulseGivesTheResetState : Obligations.ResetPulseGivesTheResetState := by
  refine ⟨fun s moves rest hs hmoves => ?_, fun s m rest hr hs => ⟨?_, ?_⟩⟩
  · refine ⟨State.reset.withSched rest, ?_, atReset_withSched.mpr resetStateHoldsTheTable, rfl, rfl⟩
    rw [run_succ (step_resetLow hs)]
    exact run_held moves rfl rfl hmoves
  · rintro rfl
    rw [step_cons hs]
    exact act_sequencer_held (s := s.withSched rest) (by simp [State.withSched, hr])
  · obtain ⟨hread, hwrite⟩ := act_host_held (s := s.withSched rest) hr
    rw [step_cons hs]
    rintro (⟨a, n, rfl⟩ | ⟨a, n, v, rfl⟩)
    · exact hread a n
    · exact hwrite a n v

end Sys2Proof.Machine
end
